-- ==== Sys2Proof/Word.lean ====
section
/-! DEFINITION. The word types of the core (spec 00_scope.md R9, R13): every register, address and bus word is 32 bits. -/

namespace Sys2Proof

/-- XLEN = 32: registers, ALU values, data, instruction words and byte addresses (R9). -/
abbrev Word := BitVec 32

/-- One byte lane of the data bus (R105). -/
abbrev Byte := BitVec 8

/-- A general register number, `x0` to `x31` (R30). -/
abbrev RegIdx := BitVec 5

/-- A CSR number in the "logical 4096-entry address space" (R40). -/
abbrev CsrAddr := BitVec 12

/-- A word address, `a[31:2]` of a byte address (R103). -/
abbrev WordAddr := BitVec 30

end Sys2Proof
end

