-- ==== Sys2Proof/Config.lean ====
section
/-! DEFINITION. The open parameters of the hardware (00_scope.md R10), as plain data that stands in `State.cfg` and that no step
changes, and the free value of a device's answer. A claim about every state is a claim about every value of them. -/

namespace Sys2Proof

/-- What the platform does at a range of data words that is not plain main memory (`BUS`, R115, 92_eei_decisions.md D25). -/
inductive RegionKind where
  /-- A memory-mapped device: what a read answers is a free value, a write changes no main memory (log 13). -/
  | device
  /-- Out of range, "alias to a defined fallback" value: a read answers `v`, a write is dropped (log 14). -/
  | fallback (v : Word)
  /-- Out of range, aliased to a fallback location: word `base + k` is the main-memory word `dest + k` (log 14). -/
  | mirror (dest : WordAddr)
  /-- The program text, where instruction and data memory are one storage (R121, R123): a read answers the instruction memory,
  a store is refused (log 12). -/
  | text
  deriving DecidableEq, Repr

/-- `size` data words from word address `base` on, at which the platform does what `kind` says. -/
structure Region where
  base : Nat
  size : Nat
  kind : RegionKind
  deriving DecidableEq, Repr

/-- The parameters of R10. Addresses in no region of `bus` are plain main memory. -/
structure Config where
  /-- `RESET_PC[31:2]`: the reset PC is word-aligned (D19). -/
  resetWord : WordAddr
  /-- `MISA_VALUE`, what `misa` reads (R50, D12). -/
  misa : Word
  /-- `IRQ_TIMER_FIRST`, the cause recorded when both interrupts are pending and enabled (R355, D7). -/
  irqTimerFirst : Bool
  /-- `BUS`: the ranges of the data space that are not plain memory; the first that covers a word decides. -/
  bus : List Region
  deriving DecidableEq, Repr

/-- `RESET_PC` (R400): word-aligned. -/
def Config.resetPc (c : Config) : Word := c.resetWord ++ 0#2

/-- The parameters that `State.reset` takes: `RESET_PC` = 0x00001000 (PRESUMED, log 1), `MISA_VALUE` = 0x40000100 (PRESUMED,
log 2), `IRQ_TIMER_FIRST` = false (DESIGN CHOICE, log 3), `BUS` all plain memory (DESIGN CHOICE, log 4). -/
def Config.default : Config where
  resetWord := 0x400#30
  misa := 0x40000100#32
  irqTimerFirst := false
  bus := []

/-- FREE VALUE (log 13): the word a device answers to the n-th device read (R114, R115). Nothing constrains it. -/
opaque Config.deviceWord : Nat → Word

end Sys2Proof
end

