-- ==== Sys2Proof/Syntax.lean ====
section
/-! DEFINITION. The 47 instructions of spec/opcode_table.json (30_encoding.md R169), one constructor per row.
Register numbers and immediates are the bits of the encoding (R141); an instruction word that no row matches is no `Instr`
(it takes the default arm, R171, in Machine/System.lean). -/

namespace Sys2Proof

/-- One constructor per row of the opcode table. `imm` is the 12-bit I- or S-immediate, `imm20` the value of bits 31:12 (U),
`off` the byte offset of a branch (13 bits) or of JAL (21 bits), whose bit 0 the encoding does not hold. -/
inductive Instr where
  -- 40_integer.md: upper immediate
  | lui (rd : RegIdx) (imm20 : BitVec 20)
  | auipc (rd : RegIdx) (imm20 : BitVec 20)
  -- 40_integer.md: register-immediate
  | addi (rd rs1 : RegIdx) (imm : BitVec 12)
  | slti (rd rs1 : RegIdx) (imm : BitVec 12)
  | sltiu (rd rs1 : RegIdx) (imm : BitVec 12)
  | xori (rd rs1 : RegIdx) (imm : BitVec 12)
  | ori (rd rs1 : RegIdx) (imm : BitVec 12)
  | andi (rd rs1 : RegIdx) (imm : BitVec 12)
  | slli (rd rs1 : RegIdx) (shamt : BitVec 5)
  | srli (rd rs1 : RegIdx) (shamt : BitVec 5)
  | srai (rd rs1 : RegIdx) (shamt : BitVec 5)
  -- 40_integer.md: register-register
  | add (rd rs1 rs2 : RegIdx)
  | sub (rd rs1 rs2 : RegIdx)
  | sll (rd rs1 rs2 : RegIdx)
  | slt (rd rs1 rs2 : RegIdx)
  | sltu (rd rs1 rs2 : RegIdx)
  | xor (rd rs1 rs2 : RegIdx)
  | srl (rd rs1 rs2 : RegIdx)
  | sra (rd rs1 rs2 : RegIdx)
  | or (rd rs1 rs2 : RegIdx)
  | and (rd rs1 rs2 : RegIdx)
  -- 41_control_transfer.md
  | jal (rd : RegIdx) (off : BitVec 21)
  | jalr (rd rs1 : RegIdx) (imm : BitVec 12)
  | beq (rs1 rs2 : RegIdx) (off : BitVec 13)
  | bne (rs1 rs2 : RegIdx) (off : BitVec 13)
  | blt (rs1 rs2 : RegIdx) (off : BitVec 13)
  | bge (rs1 rs2 : RegIdx) (off : BitVec 13)
  | bltu (rs1 rs2 : RegIdx) (off : BitVec 13)
  | bgeu (rs1 rs2 : RegIdx) (off : BitVec 13)
  -- 42_load_store.md
  | lb (rd rs1 : RegIdx) (imm : BitVec 12)
  | lh (rd rs1 : RegIdx) (imm : BitVec 12)
  | lw (rd rs1 : RegIdx) (imm : BitVec 12)
  | lbu (rd rs1 : RegIdx) (imm : BitVec 12)
  | lhu (rd rs1 : RegIdx) (imm : BitVec 12)
  | sb (rs1 rs2 : RegIdx) (imm : BitVec 12)
  | sh (rs1 rs2 : RegIdx) (imm : BitVec 12)
  | sw (rs1 rs2 : RegIdx) (imm : BitVec 12)
  -- 43_system_csr.md: Zicsr
  | csrrw (rd : RegIdx) (csr : CsrAddr) (rs1 : RegIdx)
  | csrrs (rd : RegIdx) (csr : CsrAddr) (rs1 : RegIdx)
  | csrrc (rd : RegIdx) (csr : CsrAddr) (rs1 : RegIdx)
  | csrrwi (rd : RegIdx) (csr : CsrAddr) (uimm : BitVec 5)
  | csrrsi (rd : RegIdx) (csr : CsrAddr) (uimm : BitVec 5)
  | csrrci (rd : RegIdx) (csr : CsrAddr) (uimm : BitVec 5)
  -- 43_system_csr.md: trap class
  | ecall
  | ebreak
  | mret
  -- 43_system_csr.md: fence; every field is ignored when it executes (R330)
  | fence (rd rs1 : RegIdx) (fm pred succ : BitVec 4)
  deriving DecidableEq, Repr

end Sys2Proof
end

