-- ==== Sys2Proof/Machine/State.lean ====
section
/-! DEFINITION. The state of the core as plain data (10_state.md): general registers, PC, CSRs, the four pipeline registers, the
memories behind the bus, the input trace, and the reasons a step can stop. INVENTORY.md lists every field with its rule. -/

namespace Sys2Proof.Machine

/-- Why the machine stops with a fault. -/
inductive Fault where
  /-- A fetch from a PC whose bits 1:0 are not 00: the word returned is the platform's, and the spec makes the run stuck there
  (R122, 93_implementation_defined.md I8). Raised by a fetch, by no instruction. Safe (log 11). -/
  | misalignedFetch
  deriving DecidableEq, Repr

/-- Why the machine refuses to go on. -/
inductive Refusal where
  /-- No meaning for the instruction yet: raised only by a refused arm of `exec`. Safe. -/
  | notModelled (mnemonic : String)
  /-- A store into a data word that the platform makes program text (`RegionKind.text`): "a model treats instruction memory as
  read-only program text and refuses a program that stores into it" (R123). Raised by SB, SH, SW. Safe (log 12). -/
  | storeIntoProgramText
  deriving DecidableEq, Repr

/-! ### The control vector (30_encoding.md R160) -/

/-- ALU operand 1: "register or PC". -/
inductive Op1Sel where | reg | pc
  deriving DecidableEq, Repr
/-- ALU operand 2: "register or immediate". -/
inductive Op2Sel where | reg | imm
  deriving DecidableEq, Repr
/-- The ALU's functions (R200). -/
inductive AluOp where | add | sub | sll | slt | sltu | xor | srl | sra | or | and
  deriving DecidableEq, Repr
/-- The write-back source: "ALU result / memory data / PC+4 / CSR-read value". -/
inductive WbSel where | alu | mem | pc4 | csr
  deriving DecidableEq, Repr
/-- Direct write, set or clear (R312). -/
inductive CsrOp where | write | set | clear
  deriving DecidableEq, Repr
/-- The trap-class instruction, read by the trap controller. -/
inductive Sys where | none | ecall | ebreak | mret
  deriving DecidableEq, Repr

/-- The control vector (R160); its default values are the default arm's (R162). -/
structure Ctrl where
  op1Sel : Op1Sel := .reg
  op2Sel : Op2Sel := .reg
  aluOp : AluOp := .add
  memRead : Bool := false
  memWrite : Bool := false
  wbSel : WbSel := .alu
  regWrite : Bool := false
  csrAddr : CsrAddr := 0#12
  csrWrite : Bool := false
  csrOp : CsrOp := .write
  csrImm : Bool := false
  branch : Bool := false
  jal : Bool := false
  jalr : Bool := false
  sys : Sys := .none
  funct3 : BitVec 3 := 0#3
  deriving DecidableEq, Repr

/-! ### The pipeline registers (10_state.md R61 to R64); the default values are the bubble (R67) -/

/-- IF/ID (R61). -/
structure IfId where
  valid : Bool := false
  pc : Word := 0#32
  instr : Word := 0x00000013#32
  deriving DecidableEq, Repr

/-- ID/EX (R62). -/
structure IdEx where
  valid : Bool := false
  pc : Word := 0#32
  instr : Word := 0x00000013#32
  rs1 : RegIdx := 0#5
  rs2 : RegIdx := 0#5
  rd : RegIdx := 0#5
  rs1Val : Word := 0#32
  rs2Val : Word := 0#32
  imm : Word := 0#32
  ctrl : Ctrl := {}
  deriving DecidableEq, Repr

/-- EX/MEM (R63). -/
structure ExMem where
  valid : Bool := false
  pc : Word := 0#32
  rd : RegIdx := 0#5
  regWrite : Bool := false
  wbSel : WbSel := .alu
  aluResult : Word := 0#32
  storeData : Word := 0#32
  memRead : Bool := false
  memWrite : Bool := false
  funct3 : BitVec 3 := 0#3
  pc4 : Word := 0#32
  csrRdata : Word := 0#32
  deriving DecidableEq, Repr

/-- MEM/WB (R64). -/
structure MemWb where
  valid : Bool := false
  rd : RegIdx := 0#5
  regWrite : Bool := false
  wbSel : WbSel := .alu
  aluResult : Word := 0#32
  memData : Word := 0#32
  pc4 : Word := 0#32
  csrRdata : Word := 0#32
  deriving DecidableEq, Repr

/-- The four stage registers (R60). `{}` is the empty pipeline, four bubbles. -/
structure Pipeline where
  ifId : IfId := {}
  idEx : IdEx := {}
  exMem : ExMem := {}
  memWb : MemWb := {}
  deriving DecidableEq, Repr

/-- The model's own (log 15): the instruction level's view of the front end, from which `step` knows how many bubble cycles
come before the next instruction is in EX. `inEx`: that instruction is in ID/EX; `inId`: IF/ID holds an instruction too (the
next one, or the one after it when `inEx`). -/
structure FrontEnd where
  inId : Bool := false
  inEx : Bool := false
  deriving DecidableEq, Repr

/-- The inputs of one clock cycle (R70, R10). `imem_data` and `dmem_rdata` come from the memories in the state. -/
structure Inputs where
  reset : Bool := false
  imemValid : Bool := true
  irqExt : Bool := false
  irqTimer : Bool := false
  deriving DecidableEq, Repr

/-- Memory as (address, byte) pairs, addresses strictly rising, no entry equal to what an unlisted address reads as. -/
abbrev Memory := List Host.Cell

/-- The state of the machine. -/
@[ext]
structure State where
  /-- The open parameters (R10): no step changes them. -/
  cfg : Config
  /-- The PC (R33): the fetch address; with the pipeline empty, the address of the next instruction in program order. -/
  pc : Word
  /-- x1 to x31 (R30): x0 has no storage (R32). -/
  regs : Vector Word 31
  mstatus : Word
  mie : Word
  mtvec : Word
  mscratch : Word
  mepc : Word
  mcause : Word
  mtval : Word
  mip : Word
  /-- The 64-bit cycle counter behind `cycle` and `cycleh` (R49). -/
  mcycle64 : BitVec 64
  /-- The instruction memory, reached by fetch only (R100). -/
  imem : Memory
  /-- The data memory (R101). -/
  dmem : Memory
  /-- The four pipeline registers (R60 to R64). -/
  pipe : Pipeline
  /-- The model's own (log 15). -/
  front : FrontEnd
  /-- The inputs of the cycles to come, the current cycle's first; after them every cycle has the quiet inputs (log 16). -/
  inputs : List Inputs
  /-- The model's own (log 13): how many device reads have been answered; the free value `Config.deviceWord` is applied to it. -/
  deviceReads : Nat
  deriving DecidableEq, Repr

/-- The state of R400 for given parameters: what reset leaves, whatever the rest of the state was. The memories and devices are
the platform's and are untouched (R406). x1 to x31 are 0 (DESIGN CHOICE, log 5). -/
def State.resetWith (cfg : Config) (imem dmem : Memory) (inputs : List Inputs) (deviceReads : Nat) : State where
  cfg := cfg
  pc := cfg.resetPc
  regs := Vector.replicate 31 0#32
  mstatus := 0#32
  mie := 0#32
  mtvec := 0#32
  mscratch := 0#32
  mepc := 0#32
  mcause := 0#32
  mtval := 0#32
  mip := 0#32
  mcycle64 := 0#64
  imem := imem
  dmem := dmem
  pipe := {}
  front := {}
  inputs := inputs
  deviceReads := deviceReads

/-- The machine right after reset (R400): no memory listed, no input scheduled, the default parameters. -/
def State.reset : State := State.resetWith Config.default [] [] [] 0

end Sys2Proof.Machine
end

