-- ==== Sys2Proof/Machine/Flags.lean ====
section
/-! DEFINITION. The core has no status flags (10_state.md R35): comparisons write 0 or 1 into a register or decide a branch. This
file holds those comparisons and the ALU they belong to (R200, R251). -/

namespace Sys2Proof.Machine

/-- `if c then 1 else 0`, the result of the set-less-than functions (R200). -/
def boolWord (c : Bool) : Word := if c then 1#32 else 0#32

/-- `signed(a) < signed(b)` (R13). -/
def signedLt (a b : Word) : Bool := decide (a.toInt < b.toInt)

/-- `unsigned(a) < unsigned(b)` (R13). -/
def unsignedLt (a b : Word) : Bool := decide (a.toNat < b.toNat)

/-- The shift amount, `b[4:0]` (R200): a shift is by 0 to 31. -/
def shiftAmount (b : Word) : Nat := (b.extractLsb' 0 5).toNat

/-- The ALU (R200). -/
def alu (op : AluOp) (a b : Word) : Word :=
  match op with
  | .add => a + b
  | .sub => a - b
  | .sll => a <<< shiftAmount b
  | .srl => a >>> shiftAmount b
  | .sra => a.sshiftRight (shiftAmount b)
  | .slt => boolWord (signedLt a b)
  | .sltu => boolWord (unsignedLt a b)
  | .xor => a ^^^ b
  | .or => a ||| b
  | .and => a &&& b

/-- The branch condition by funct3 (R251). funct3 010 and 011 are no branch (R164): they ask for no jump. -/
def branchCond (f3 : BitVec 3) (a b : Word) : Bool :=
  match f3 with
  | 0b000#3 => a == b
  | 0b001#3 => a != b
  | 0b100#3 => signedLt a b
  | 0b101#3 => !signedLt a b
  | 0b110#3 => unsignedLt a b
  | 0b111#3 => !unsignedLt a b
  | _ => false

end Sys2Proof.Machine
end

