-- ==== Sys2Proof/WellFormed.lean ====
section
/-! DEFINITION. Which instructions have an encoding. Every field of `Instr` is as wide as its field of the word, so the only
check is the offset of a branch or of JAL: "The value is an even byte offset" (30_encoding.md R152, R154). -/

namespace Sys2Proof

/-- The offset is even: its bit 0, which no encoding holds, is 0. -/
def evenOffset {n : Nat} (off : BitVec n) : Bool := !off.getLsbD 0

/-- The instruction has an encoding. -/
def Instr.wellFormed : Instr → Bool
  | .lui _ _ | .auipc _ _ => true
  | .addi _ _ _ | .slti _ _ _ | .sltiu _ _ _ | .xori _ _ _ | .ori _ _ _ | .andi _ _ _ => true
  | .slli _ _ _ | .srli _ _ _ | .srai _ _ _ => true
  | .add _ _ _ | .sub _ _ _ | .sll _ _ _ | .slt _ _ _ | .sltu _ _ _ => true
  | .xor _ _ _ | .srl _ _ _ | .sra _ _ _ | .or _ _ _ | .and _ _ _ => true
  | .jal _ off => evenOffset off
  | .jalr _ _ _ => true
  | .beq _ _ off => evenOffset off
  | .bne _ _ off => evenOffset off
  | .blt _ _ off => evenOffset off
  | .bge _ _ off => evenOffset off
  | .bltu _ _ off => evenOffset off
  | .bgeu _ _ off => evenOffset off
  | .lb _ _ _ | .lh _ _ _ | .lw _ _ _ | .lbu _ _ _ | .lhu _ _ _ => true
  | .sb _ _ _ | .sh _ _ _ | .sw _ _ _ => true
  | .csrrw _ _ _ | .csrrs _ _ _ | .csrrc _ _ _ | .csrrwi _ _ _ | .csrrsi _ _ _ | .csrrci _ _ _ => true
  | .ecall | .ebreak | .mret => true
  | .fence _ _ _ _ _ => true

end Sys2Proof
end

