-- ==== Sys2Proof/Decode.lean ====
section
/-! DEFINITION. Decoding and encoding (30_encoding.md): fields, immediates, the strict decoder of R170, total on any word and
rejecting by name every word that takes the default arm (R171), and the encoder written from the formats of R141. -/

namespace Sys2Proof

/-! ### Fields (R142) -/

def opcodeOf (w : Word) : BitVec 7 := w.extractLsb' 0 7
def rdOf (w : Word) : RegIdx := w.extractLsb' 7 5
def funct3Of (w : Word) : BitVec 3 := w.extractLsb' 12 3
/-- `rs1f` of R142, the raw field; also `zimm` of the CSR immediate forms. -/
def rs1fOf (w : Word) : RegIdx := w.extractLsb' 15 5
/-- `rs2f` of R142; also `shamt`. -/
def rs2fOf (w : Word) : RegIdx := w.extractLsb' 20 5
def funct7Of (w : Word) : BitVec 7 := w.extractLsb' 25 7
def csrOf (w : Word) : CsrAddr := w.extractLsb' 20 12

/-! ### Immediate fields (R150 to R154), before extension -/

/-- `instr[31:20]` (R150). -/
def immIOf (w : Word) : BitVec 12 := w.extractLsb' 20 12
/-- `instr[31:25] ++ instr[11:7]` (R151). -/
def immSOf (w : Word) : BitVec 12 := w.extractLsb' 25 7 ++ w.extractLsb' 7 5
/-- `instr[31] ++ instr[7] ++ instr[30:25] ++ instr[11:8] ++ 0` (R152). -/
def immBOf (w : Word) : BitVec 13 :=
  w.extractLsb' 31 1 ++ w.extractLsb' 7 1 ++ w.extractLsb' 25 6 ++ w.extractLsb' 8 4 ++ 0#1
/-- `instr[31:12]` (R153). -/
def immUOf (w : Word) : BitVec 20 := w.extractLsb' 12 20
/-- `instr[31] ++ instr[19:12] ++ instr[20] ++ instr[30:21] ++ 0` (R154). -/
def immJOf (w : Word) : BitVec 21 :=
  w.extractLsb' 31 1 ++ w.extractLsb' 12 8 ++ w.extractLsb' 20 1 ++ w.extractLsb' 21 10 ++ 0#1

/-! ### The decoder (R163 to R171) -/

/-- Why a word is not one of the 47 instructions: it takes the default arm (R171). -/
inductive DecodeError where
  /-- Fewer than the four bytes of an instruction word are left (R140). -/
  | truncated
  /-- `instr[6:0]` is no major opcode of R163; this covers words with bits 1:0 ≠ 11. -/
  | unknownOpcode (op : BitVec 7)
  /-- A reserved funct3 of a major opcode (R163 to R165, R168). -/
  | reservedFunct3 (op : BitVec 7) (f3 : BitVec 3)
  /-- A reserved funct7 of OP or of a shift-immediate (R166, R167). -/
  | reservedFunct7 (op : BitVec 7) (f3 : BitVec 3) (f7 : BitVec 7)
  /-- A SYSTEM word with funct3 000 that is not ECALL, EBREAK or MRET (R168), such as `wfi` or `sret`. -/
  | reservedSystem (w : Word)
  deriving DecidableEq, Repr

/-- BRANCH (R164). -/
def decodeBranch (w : Word) : Except DecodeError Instr :=
  match funct3Of w with
  | 0b000#3 => .ok (.beq (rs1fOf w) (rs2fOf w) (immBOf w))
  | 0b001#3 => .ok (.bne (rs1fOf w) (rs2fOf w) (immBOf w))
  | 0b100#3 => .ok (.blt (rs1fOf w) (rs2fOf w) (immBOf w))
  | 0b101#3 => .ok (.bge (rs1fOf w) (rs2fOf w) (immBOf w))
  | 0b110#3 => .ok (.bltu (rs1fOf w) (rs2fOf w) (immBOf w))
  | 0b111#3 => .ok (.bgeu (rs1fOf w) (rs2fOf w) (immBOf w))
  | f3 => .error (.reservedFunct3 (opcodeOf w) f3)

/-- LOAD (R165). -/
def decodeLoad (w : Word) : Except DecodeError Instr :=
  match funct3Of w with
  | 0b000#3 => .ok (.lb (rdOf w) (rs1fOf w) (immIOf w))
  | 0b001#3 => .ok (.lh (rdOf w) (rs1fOf w) (immIOf w))
  | 0b010#3 => .ok (.lw (rdOf w) (rs1fOf w) (immIOf w))
  | 0b100#3 => .ok (.lbu (rdOf w) (rs1fOf w) (immIOf w))
  | 0b101#3 => .ok (.lhu (rdOf w) (rs1fOf w) (immIOf w))
  | f3 => .error (.reservedFunct3 (opcodeOf w) f3)

/-- STORE (R165). -/
def decodeStore (w : Word) : Except DecodeError Instr :=
  match funct3Of w with
  | 0b000#3 => .ok (.sb (rs1fOf w) (rs2fOf w) (immSOf w))
  | 0b001#3 => .ok (.sh (rs1fOf w) (rs2fOf w) (immSOf w))
  | 0b010#3 => .ok (.sw (rs1fOf w) (rs2fOf w) (immSOf w))
  | f3 => .error (.reservedFunct3 (opcodeOf w) f3)

/-- OP-IMM (R166): the shift forms check funct7. -/
def decodeOpImm (w : Word) : Except DecodeError Instr :=
  match funct3Of w with
  | 0b000#3 => .ok (.addi (rdOf w) (rs1fOf w) (immIOf w))
  | 0b001#3 =>
    match funct7Of w with
    | 0b0000000#7 => .ok (.slli (rdOf w) (rs1fOf w) (rs2fOf w))
    | f7 => .error (.reservedFunct7 (opcodeOf w) (funct3Of w) f7)
  | 0b010#3 => .ok (.slti (rdOf w) (rs1fOf w) (immIOf w))
  | 0b011#3 => .ok (.sltiu (rdOf w) (rs1fOf w) (immIOf w))
  | 0b100#3 => .ok (.xori (rdOf w) (rs1fOf w) (immIOf w))
  | 0b101#3 =>
    match funct7Of w with
    | 0b0000000#7 => .ok (.srli (rdOf w) (rs1fOf w) (rs2fOf w))
    | 0b0100000#7 => .ok (.srai (rdOf w) (rs1fOf w) (rs2fOf w))
    | f7 => .error (.reservedFunct7 (opcodeOf w) (funct3Of w) f7)
  | 0b110#3 => .ok (.ori (rdOf w) (rs1fOf w) (immIOf w))
  | _ => .ok (.andi (rdOf w) (rs1fOf w) (immIOf w))

/-- OP (R167). -/
def decodeOp (w : Word) : Except DecodeError Instr :=
  match funct7Of w with
  | 0b0000000#7 =>
    match funct3Of w with
    | 0b000#3 => .ok (.add (rdOf w) (rs1fOf w) (rs2fOf w))
    | 0b001#3 => .ok (.sll (rdOf w) (rs1fOf w) (rs2fOf w))
    | 0b010#3 => .ok (.slt (rdOf w) (rs1fOf w) (rs2fOf w))
    | 0b011#3 => .ok (.sltu (rdOf w) (rs1fOf w) (rs2fOf w))
    | 0b100#3 => .ok (.xor (rdOf w) (rs1fOf w) (rs2fOf w))
    | 0b101#3 => .ok (.srl (rdOf w) (rs1fOf w) (rs2fOf w))
    | 0b110#3 => .ok (.or (rdOf w) (rs1fOf w) (rs2fOf w))
    | _ => .ok (.and (rdOf w) (rs1fOf w) (rs2fOf w))
  | 0b0100000#7 =>
    match funct3Of w with
    | 0b000#3 => .ok (.sub (rdOf w) (rs1fOf w) (rs2fOf w))
    | 0b101#3 => .ok (.sra (rdOf w) (rs1fOf w) (rs2fOf w))
    | f3 => .error (.reservedFunct7 (opcodeOf w) f3 (funct7Of w))
  | f7 => .error (.reservedFunct7 (opcodeOf w) (funct3Of w) f7)

/-- SYSTEM with funct3 000: three exact words (R168). -/
def decodeSystemWord (w : Word) : Except DecodeError Instr :=
  match w with
  | 0x00000073#32 => .ok .ecall
  | 0x00100073#32 => .ok .ebreak
  | 0x30200073#32 => .ok .mret
  | w => .error (.reservedSystem w)

/-- SYSTEM (R168). -/
def decodeSystem (w : Word) : Except DecodeError Instr :=
  match funct3Of w with
  | 0b000#3 => decodeSystemWord w
  | 0b001#3 => .ok (.csrrw (rdOf w) (csrOf w) (rs1fOf w))
  | 0b010#3 => .ok (.csrrs (rdOf w) (csrOf w) (rs1fOf w))
  | 0b011#3 => .ok (.csrrc (rdOf w) (csrOf w) (rs1fOf w))
  | 0b101#3 => .ok (.csrrwi (rdOf w) (csrOf w) (rs1fOf w))
  | 0b110#3 => .ok (.csrrsi (rdOf w) (csrOf w) (rs1fOf w))
  | 0b111#3 => .ok (.csrrci (rdOf w) (csrOf w) (rs1fOf w))
  | f3 => .error (.reservedFunct3 (opcodeOf w) f3)

/-- JALR (R163): funct3 000 only. -/
def decodeJalr (w : Word) : Except DecodeError Instr :=
  match funct3Of w with
  | 0b000#3 => .ok (.jalr (rdOf w) (rs1fOf w) (immIOf w))
  | f3 => .error (.reservedFunct3 (opcodeOf w) f3)

/-- MISC-MEM (R163): FENCE, funct3 000 only, every other bit free (R330). -/
def decodeMiscMem (w : Word) : Except DecodeError Instr :=
  match funct3Of w with
  | 0b000#3 =>
    .ok (.fence (rdOf w) (rs1fOf w) (w.extractLsb' 28 4) (w.extractLsb' 24 4) (w.extractLsb' 20 4))
  | f3 => .error (.reservedFunct3 (opcodeOf w) f3)

/-- The decoder (R170): the instruction whose opcode-table row the word matches, or why no row matches. -/
def decodeWord (w : Word) : Except DecodeError Instr :=
  match opcodeOf w with
  | 0b0110111#7 => .ok (.lui (rdOf w) (immUOf w))
  | 0b0010111#7 => .ok (.auipc (rdOf w) (immUOf w))
  | 0b1101111#7 => .ok (.jal (rdOf w) (immJOf w))
  | 0b1100111#7 => decodeJalr w
  | 0b1100011#7 => decodeBranch w
  | 0b0000011#7 => decodeLoad w
  | 0b0100011#7 => decodeStore w
  | 0b0010011#7 => decodeOpImm w
  | 0b0110011#7 => decodeOp w
  | 0b0001111#7 => decodeMiscMem w
  | 0b1110011#7 => decodeSystem w
  | op => .error (.unknownOpcode op)

/-- The word of four bytes, the first at the lowest address (little-endian, R105, R121). -/
def wordOfBytes (b0 b1 b2 b3 : Byte) : Word := b3 ++ b2 ++ b1 ++ b0

/-- Byte lane `k` of a word: bits 8k+7:8k (R105). -/
def byteLane (w : Word) (k : Nat) : Byte := w.extractLsb' (8 * k) 8

/-- Decode the first instruction of a byte string, and the bytes after it (R140: every instruction is one word). -/
def decode : List Byte → Except DecodeError (Instr × List Byte)
  | b0 :: b1 :: b2 :: b3 :: rest => (decodeWord (wordOfBytes b0 b1 b2 b3)).map (·, rest)
  | _ => .error .truncated

/-! ### The encoder (R141) -/

def rType (f7 : BitVec 7) (f3 : BitVec 3) (op : BitVec 7) (rd rs1 rs2 : RegIdx) : Word :=
  f7 ++ rs2 ++ rs1 ++ f3 ++ rd ++ op
def iType (f3 : BitVec 3) (op : BitVec 7) (rd rs1 : RegIdx) (imm : BitVec 12) : Word :=
  imm ++ rs1 ++ f3 ++ rd ++ op
def sType (f3 : BitVec 3) (op : BitVec 7) (rs1 rs2 : RegIdx) (imm : BitVec 12) : Word :=
  imm.extractLsb' 5 7 ++ rs2 ++ rs1 ++ f3 ++ imm.extractLsb' 0 5 ++ op
def bType (f3 : BitVec 3) (op : BitVec 7) (rs1 rs2 : RegIdx) (off : BitVec 13) : Word :=
  off.extractLsb' 12 1 ++ off.extractLsb' 5 6 ++ rs2 ++ rs1 ++ f3 ++ off.extractLsb' 1 4 ++ off.extractLsb' 11 1 ++ op
def uType (op : BitVec 7) (rd : RegIdx) (imm20 : BitVec 20) : Word := imm20 ++ rd ++ op
def jType (op : BitVec 7) (rd : RegIdx) (off : BitVec 21) : Word :=
  off.extractLsb' 20 1 ++ off.extractLsb' 1 10 ++ off.extractLsb' 11 1 ++ off.extractLsb' 12 8 ++ rd ++ op

/-- The word of an instruction, from the formats of R141 and the codes of R163 to R168. -/
def encodeWord : Instr → Word
  | .lui rd imm => uType 0b0110111#7 rd imm
  | .auipc rd imm => uType 0b0010111#7 rd imm
  | .addi rd rs1 imm => iType 0b000#3 0b0010011#7 rd rs1 imm
  | .slti rd rs1 imm => iType 0b010#3 0b0010011#7 rd rs1 imm
  | .sltiu rd rs1 imm => iType 0b011#3 0b0010011#7 rd rs1 imm
  | .xori rd rs1 imm => iType 0b100#3 0b0010011#7 rd rs1 imm
  | .ori rd rs1 imm => iType 0b110#3 0b0010011#7 rd rs1 imm
  | .andi rd rs1 imm => iType 0b111#3 0b0010011#7 rd rs1 imm
  | .slli rd rs1 shamt => rType 0b0000000#7 0b001#3 0b0010011#7 rd rs1 shamt
  | .srli rd rs1 shamt => rType 0b0000000#7 0b101#3 0b0010011#7 rd rs1 shamt
  | .srai rd rs1 shamt => rType 0b0100000#7 0b101#3 0b0010011#7 rd rs1 shamt
  | .add rd rs1 rs2 => rType 0b0000000#7 0b000#3 0b0110011#7 rd rs1 rs2
  | .sub rd rs1 rs2 => rType 0b0100000#7 0b000#3 0b0110011#7 rd rs1 rs2
  | .sll rd rs1 rs2 => rType 0b0000000#7 0b001#3 0b0110011#7 rd rs1 rs2
  | .slt rd rs1 rs2 => rType 0b0000000#7 0b010#3 0b0110011#7 rd rs1 rs2
  | .sltu rd rs1 rs2 => rType 0b0000000#7 0b011#3 0b0110011#7 rd rs1 rs2
  | .xor rd rs1 rs2 => rType 0b0000000#7 0b100#3 0b0110011#7 rd rs1 rs2
  | .srl rd rs1 rs2 => rType 0b0000000#7 0b101#3 0b0110011#7 rd rs1 rs2
  | .sra rd rs1 rs2 => rType 0b0100000#7 0b101#3 0b0110011#7 rd rs1 rs2
  | .or rd rs1 rs2 => rType 0b0000000#7 0b110#3 0b0110011#7 rd rs1 rs2
  | .and rd rs1 rs2 => rType 0b0000000#7 0b111#3 0b0110011#7 rd rs1 rs2
  | .jal rd off => jType 0b1101111#7 rd off
  | .jalr rd rs1 imm => iType 0b000#3 0b1100111#7 rd rs1 imm
  | .beq rs1 rs2 off => bType 0b000#3 0b1100011#7 rs1 rs2 off
  | .bne rs1 rs2 off => bType 0b001#3 0b1100011#7 rs1 rs2 off
  | .blt rs1 rs2 off => bType 0b100#3 0b1100011#7 rs1 rs2 off
  | .bge rs1 rs2 off => bType 0b101#3 0b1100011#7 rs1 rs2 off
  | .bltu rs1 rs2 off => bType 0b110#3 0b1100011#7 rs1 rs2 off
  | .bgeu rs1 rs2 off => bType 0b111#3 0b1100011#7 rs1 rs2 off
  | .lb rd rs1 imm => iType 0b000#3 0b0000011#7 rd rs1 imm
  | .lh rd rs1 imm => iType 0b001#3 0b0000011#7 rd rs1 imm
  | .lw rd rs1 imm => iType 0b010#3 0b0000011#7 rd rs1 imm
  | .lbu rd rs1 imm => iType 0b100#3 0b0000011#7 rd rs1 imm
  | .lhu rd rs1 imm => iType 0b101#3 0b0000011#7 rd rs1 imm
  | .sb rs1 rs2 imm => sType 0b000#3 0b0100011#7 rs1 rs2 imm
  | .sh rs1 rs2 imm => sType 0b001#3 0b0100011#7 rs1 rs2 imm
  | .sw rs1 rs2 imm => sType 0b010#3 0b0100011#7 rs1 rs2 imm
  | .csrrw rd csr rs1 => iType 0b001#3 0b1110011#7 rd rs1 csr
  | .csrrs rd csr rs1 => iType 0b010#3 0b1110011#7 rd rs1 csr
  | .csrrc rd csr rs1 => iType 0b011#3 0b1110011#7 rd rs1 csr
  | .csrrwi rd csr uimm => iType 0b101#3 0b1110011#7 rd uimm csr
  | .csrrsi rd csr uimm => iType 0b110#3 0b1110011#7 rd uimm csr
  | .csrrci rd csr uimm => iType 0b111#3 0b1110011#7 rd uimm csr
  | .ecall => 0x00000073#32
  | .ebreak => 0x00100073#32
  | .mret => 0x30200073#32
  | .fence rd rs1 fm pred succ => iType 0b000#3 0b0001111#7 rd rs1 (fm ++ pred ++ succ)

/-- The four bytes of an instruction, lowest address first (R105, R121). -/
def encode (i : Instr) : List Byte :=
  [byteLane (encodeWord i) 0, byteLane (encodeWord i) 1, byteLane (encodeWord i) 2, byteLane (encodeWord i) 3]

/-! ### The opcode table (R169, R170): `(mask, match)` of every row -/

/-- The row of each instruction in spec/opcode_table.json: its mask and its match. -/
def tableRow : Instr → Word × Word
  | .lui _ _ => (0x0000007F#32, 0x00000037#32)
  | .auipc _ _ => (0x0000007F#32, 0x00000017#32)
  | .addi _ _ _ => (0x0000707F#32, 0x00000013#32)
  | .slti _ _ _ => (0x0000707F#32, 0x00002013#32)
  | .sltiu _ _ _ => (0x0000707F#32, 0x00003013#32)
  | .xori _ _ _ => (0x0000707F#32, 0x00004013#32)
  | .ori _ _ _ => (0x0000707F#32, 0x00006013#32)
  | .andi _ _ _ => (0x0000707F#32, 0x00007013#32)
  | .slli _ _ _ => (0xFE00707F#32, 0x00001013#32)
  | .srli _ _ _ => (0xFE00707F#32, 0x00005013#32)
  | .srai _ _ _ => (0xFE00707F#32, 0x40005013#32)
  | .add _ _ _ => (0xFE00707F#32, 0x00000033#32)
  | .sub _ _ _ => (0xFE00707F#32, 0x40000033#32)
  | .sll _ _ _ => (0xFE00707F#32, 0x00001033#32)
  | .slt _ _ _ => (0xFE00707F#32, 0x00002033#32)
  | .sltu _ _ _ => (0xFE00707F#32, 0x00003033#32)
  | .xor _ _ _ => (0xFE00707F#32, 0x00004033#32)
  | .srl _ _ _ => (0xFE00707F#32, 0x00005033#32)
  | .sra _ _ _ => (0xFE00707F#32, 0x40005033#32)
  | .or _ _ _ => (0xFE00707F#32, 0x00006033#32)
  | .and _ _ _ => (0xFE00707F#32, 0x00007033#32)
  | .jal _ _ => (0x0000007F#32, 0x0000006F#32)
  | .jalr _ _ _ => (0x0000707F#32, 0x00000067#32)
  | .beq _ _ _ => (0x0000707F#32, 0x00000063#32)
  | .bne _ _ _ => (0x0000707F#32, 0x00001063#32)
  | .blt _ _ _ => (0x0000707F#32, 0x00004063#32)
  | .bge _ _ _ => (0x0000707F#32, 0x00005063#32)
  | .bltu _ _ _ => (0x0000707F#32, 0x00006063#32)
  | .bgeu _ _ _ => (0x0000707F#32, 0x00007063#32)
  | .lb _ _ _ => (0x0000707F#32, 0x00000003#32)
  | .lh _ _ _ => (0x0000707F#32, 0x00001003#32)
  | .lw _ _ _ => (0x0000707F#32, 0x00002003#32)
  | .lbu _ _ _ => (0x0000707F#32, 0x00004003#32)
  | .lhu _ _ _ => (0x0000707F#32, 0x00005003#32)
  | .sb _ _ _ => (0x0000707F#32, 0x00000023#32)
  | .sh _ _ _ => (0x0000707F#32, 0x00001023#32)
  | .sw _ _ _ => (0x0000707F#32, 0x00002023#32)
  | .csrrw _ _ _ => (0x0000707F#32, 0x00001073#32)
  | .csrrs _ _ _ => (0x0000707F#32, 0x00002073#32)
  | .csrrc _ _ _ => (0x0000707F#32, 0x00003073#32)
  | .csrrwi _ _ _ => (0x0000707F#32, 0x00005073#32)
  | .csrrsi _ _ _ => (0x0000707F#32, 0x00006073#32)
  | .csrrci _ _ _ => (0x0000707F#32, 0x00007073#32)
  | .ecall => (0xFFFFFFFF#32, 0x00000073#32)
  | .ebreak => (0xFFFFFFFF#32, 0x00100073#32)
  | .mret => (0xFFFFFFFF#32, 0x30200073#32)
  | .fence _ _ _ _ _ => (0x0000707F#32, 0x0000000F#32)

/-- Rows LUI to AND of the table. -/
def tableInteger : List (Word × Word) :=
  [(0x0000007F#32, 0x00000037#32), (0x0000007F#32, 0x00000017#32), (0x0000707F#32, 0x00000013#32), (0x0000707F#32, 0x00002013#32),
   (0x0000707F#32, 0x00003013#32), (0x0000707F#32, 0x00004013#32), (0x0000707F#32, 0x00006013#32), (0x0000707F#32, 0x00007013#32),
   (0xFE00707F#32, 0x00001013#32), (0xFE00707F#32, 0x00005013#32), (0xFE00707F#32, 0x40005013#32), (0xFE00707F#32, 0x00000033#32),
   (0xFE00707F#32, 0x40000033#32), (0xFE00707F#32, 0x00001033#32), (0xFE00707F#32, 0x00002033#32), (0xFE00707F#32, 0x00003033#32),
   (0xFE00707F#32, 0x00004033#32), (0xFE00707F#32, 0x00005033#32), (0xFE00707F#32, 0x40005033#32), (0xFE00707F#32, 0x00006033#32),
   (0xFE00707F#32, 0x00007033#32)]

/-- Rows JAL to BGEU of the table. -/
def tableControl : List (Word × Word) :=
  [(0x0000007F#32, 0x0000006F#32), (0x0000707F#32, 0x00000067#32), (0x0000707F#32, 0x00000063#32), (0x0000707F#32, 0x00001063#32),
   (0x0000707F#32, 0x00004063#32), (0x0000707F#32, 0x00005063#32), (0x0000707F#32, 0x00006063#32), (0x0000707F#32, 0x00007063#32)]

/-- Rows LB to SW of the table. -/
def tableLoadStore : List (Word × Word) :=
  [(0x0000707F#32, 0x00000003#32), (0x0000707F#32, 0x00001003#32), (0x0000707F#32, 0x00002003#32), (0x0000707F#32, 0x00004003#32),
   (0x0000707F#32, 0x00005003#32), (0x0000707F#32, 0x00000023#32), (0x0000707F#32, 0x00001023#32), (0x0000707F#32, 0x00002023#32)]

/-- Rows CSRRW to FENCE of the table. -/
def tableSystem : List (Word × Word) :=
  [(0x0000707F#32, 0x00001073#32), (0x0000707F#32, 0x00002073#32), (0x0000707F#32, 0x00003073#32), (0x0000707F#32, 0x00005073#32),
   (0x0000707F#32, 0x00006073#32), (0x0000707F#32, 0x00007073#32), (0xFFFFFFFF#32, 0x00000073#32), (0xFFFFFFFF#32, 0x00100073#32),
   (0xFFFFFFFF#32, 0x30200073#32), (0x0000707F#32, 0x0000000F#32)]

/-- The 47 rows, in the table's order. -/
def opcodeTable : List (Word × Word) := tableInteger ++ tableControl ++ tableLoadStore ++ tableSystem

/-- `word & mask == match` (R170). -/
def rowMatches (r : Word × Word) (w : Word) : Bool := w &&& r.1 == r.2

/-! ### What decode gives beside the instruction (R161) -/

/-- The decoded rs1 index: `instr[19:15]` for every word except LUI, whose index is forced to 0 (R161). -/
def rs1Index (w : Word) : RegIdx := if opcodeOf w = 0b0110111#7 then 0#5 else rs1fOf w

/-- The decoded rs2 index: `instr[24:20]` for every word (R161). -/
def rs2Index (w : Word) : RegIdx := rs2fOf w

/-- What the decoder reads from an instruction of the opcode table numbered as the table numbers it: bit 0 of `w` is bit 0 of the
word (every row has 32 bits). The word's bytes are laid out as the hardware stores them and given to `decode`. -/
def decodeTableWord (nbits w : Nat) : Option Instr :=
  let word : Word := BitVec.ofNat 32 (w % 2 ^ nbits)
  match decode [byteLane word 0, byteLane word 1, byteLane word 2, byteLane word 3] with
  | .ok (i, _) => some i
  | .error _ => none

end Sys2Proof
end

