-- ==== Sys2Proof/Machine/Operands.lean ====
section
/-! DEFINITION. Operand forms: the extension of each immediate (30_encoding.md R150 to R157), the byte lanes of an access
(20_memory.md R105 to R111), the jump-target and CSR operands (R250, R312). -/

namespace Sys2Proof.Machine

/-! ### Immediates -/

/-- `immI` and `immS`: the 12-bit immediate, sign-extended (R150, R151). -/
def immI (imm : BitVec 12) : Word := imm.signExtend 32
/-- `immB`: the even byte offset, sign-extended (R152). -/
def immB (off : BitVec 13) : Word := off.signExtend 32
/-- `immU`: the 20 bits at the top (R153). -/
def immU (imm20 : BitVec 20) : Word := imm20 ++ 0#12
/-- `immJ`: the even byte offset, sign-extended (R154). -/
def immJ (off : BitVec 21) : Word := off.signExtend 32
/-- `uimm`: the one zero-extended immediate (R155). -/
def uimmWord (u : BitVec 5) : Word := u.zeroExtend 32
/-- The immediate of SLLI, SRLI and SRAI as the I-immediate carries it (R156): funct7 over shamt. -/
def immShift (f7 : BitVec 7) (shamt : BitVec 5) : Word := immI (f7 ++ shamt)

/-! ### Lanes (R108 to R111) -/

/-- The low two address bits select the lane (R108). -/
def laneOf (ea : Word) : BitVec 2 := ea.extractLsb' 0 2

/-- The word address of a byte address, `a[31:2]` (R103). -/
def wordAddr (a : Word) : WordAddr := a.extractLsb' 2 30

/-- Byte lane `lane` of a word (R109). -/
def laneByte (lane : BitVec 2) (w : Word) : Byte := w.extractLsb' (8 * lane.toNat) 8

/-- The halfword lane chosen by address bit 1 (R109): bit 0 is ignored (R112). -/
def laneHalf (lane : BitVec 2) (w : Word) : BitVec 16 :=
  if lane.getLsbD 1 then w.extractLsb' 16 16 else w.extractLsb' 0 16

/-- Load lane extraction and extension (R109). funct3 011, 110 and 111 are no load (R165), no rule gives them a value, and no
instruction reaches them (log 21). -/
def loadExtract (f3 : BitVec 3) (lane : BitVec 2) (w : Word) : Word :=
  match f3 with
  | 0b000#3 => (laneByte lane w).signExtend 32
  | 0b001#3 => (laneHalf lane w).signExtend 32
  | 0b010#3 => w
  | 0b100#3 => (laneByte lane w).zeroExtend 32
  | 0b101#3 => (laneHalf lane w).zeroExtend 32
  | _ => w

/-- Store strobes (R110). funct3 011 to 111 are no store (R165): no byte is strobed. -/
def storeStrobe (f3 : BitVec 3) (lane : BitVec 2) : BitVec 4 :=
  match f3 with
  | 0b000#3 => 0b0001#4 <<< lane.toNat
  | 0b001#3 => if lane.getLsbD 1 then 0b1100#4 else 0b0011#4
  | 0b010#3 => 0b1111#4
  | _ => 0b0000#4

/-- Store data, shifted into its lane (R111); lanes whose strobe is 0 carry 0 (D24). -/
def storeData (f3 : BitVec 3) (lane : BitVec 2) (v : Word) : Word :=
  match f3 with
  | 0b000#3 => ((v.extractLsb' 0 8).zeroExtend 32) <<< (8 * lane.toNat)
  | 0b001#3 => ((v.extractLsb' 0 16).zeroExtend 32) <<< (if lane.getLsbD 1 then 16 else 0)
  | _ => v

/-! ### Jump targets and the CSR operation -/

/-- The JALR target: "(register + immediate) with the least-significant bit cleared" (R250). -/
def jalrTarget (a imm : Word) : Word := (a + imm) &&& 0xFFFFFFFE#32

/-- The new CSR value: direct write, set, or clear (R312). -/
def csrNew (op : CsrOp) (old operand : Word) : Word :=
  match op with
  | .write => operand
  | .set => old ||| operand
  | .clear => old &&& ~~~operand

end Sys2Proof.Machine
end

