-- ==== Sys2Proof/Machine/Ops.lean ====
section
/-! DEFINITION. The named operations every meaning is built from: memory and bus (20_memory.md), the register file (10_state.md R30),
the CSR file and its arbitration (R51 to R55), taking a trap and returning from one (60_exceptions.md R354 to R370), the clock
edge, and the debug port (R57). -/

namespace Sys2Proof.Machine

/-! ### Memory: one byte at an address -/

/-- What an unlisted address reads as (DESIGN CHOICE, log 6). -/
abbrev blankByte : Byte := 0#8

/-- Read one byte. -/
def Memory.read : Memory → Nat → Byte
  | [], _ => blankByte
  | (k, b) :: m, a => if k = a then b else Memory.read m a

/-- Write one byte, keeping the canonical form. -/
def Memory.write : Memory → Nat → Byte → Memory
  | [], a, b => if b = blankByte then [] else [(a, b)]
  | (k, c) :: m, a, b =>
    if a < k then (if b = blankByte then (k, c) :: m else (a, b) :: (k, c) :: m)
    else if a = k then (if b = blankByte then m else (a, b) :: m)
    else (k, c) :: Memory.write m a b

/-- The canonical form: addresses of the 32-bit space strictly rising, no entry equal to what an unlisted address reads as. -/
abbrev Memory.wf (m : Memory) : Prop :=
  m.Pairwise (fun c d => c.1 < d.1) ∧ ∀ c ∈ m, c.2 ≠ blankByte ∧ c.1 < 2 ^ 32

/-- The byte address of lane `k` of a word (R104): `a[31:2] ++ k`. -/
def laneAddr (w : WordAddr) (k : Nat) : Nat := 4 * w.toNat + k

/-- The word at a word address, little-endian (R105, R121). -/
def Memory.readWord (m : Memory) (w : WordAddr) : Word :=
  wordOfBytes (m.read (laneAddr w 0)) (m.read (laneAddr w 1)) (m.read (laneAddr w 2)) (m.read (laneAddr w 3))

/-- Write byte lane `k` of `data` if its strobe bit is 1 (R104). -/
def Memory.writeLane (m : Memory) (w : WordAddr) (strobe : BitVec 4) (data : Word) (k : Nat) : Memory :=
  if strobe.getLsbD k then m.write (laneAddr w k) (byteLane data k) else m

/-- The bytes of `data` whose strobe bits are 1 go into the word (R104). -/
def Memory.writeLanes (m : Memory) (w : WordAddr) (strobe : BitVec 4) (data : Word) : Memory :=
  (((m.writeLane w strobe data 0).writeLane w strobe data 1).writeLane w strobe data 2).writeLane w strobe data 3

/-! ### The bus (R103, R104, R115) -/

/-- What a data word address reaches on this platform. -/
inductive Target where
  /-- Main memory, at this word. -/
  | ram (w : WordAddr)
  /-- No memory: the fallback value. -/
  | fallback (v : Word)
  /-- A memory-mapped device. -/
  | device
  /-- The program text, at this word of the instruction memory. -/
  | text (w : WordAddr)
  deriving DecidableEq, Repr

/-- The region holds the word address. -/
def covers (r : Region) (w : WordAddr) : Bool := decide (r.base ≤ w.toNat) && decide (w.toNat < r.base + r.size)

/-- What the region makes of a word address it holds. -/
def regionTarget (r : Region) (w : WordAddr) : Target :=
  match r.kind with
  | .device => .device
  | .fallback v => .fallback v
  | .mirror dest => .ram (dest + (w - BitVec.ofNat 30 r.base))
  | .text => .text w

/-- The address decode of `BUS` (R115): the first region that holds the word decides; in none, it is main memory. -/
def busTarget : List Region → WordAddr → Target
  | [], w => .ram w
  | r :: rs, w => if covers r w then regionTarget r w else busTarget rs w

/-- What byte address `a` reaches. -/
def State.target (s : State) (a : Word) : Target := busTarget s.cfg.bus (wordAddr a)

/-- `BusRead(a)`: the word the platform presents for byte address `a` (R103). A device's answer is a free value (log 13). -/
def State.busRead (s : State) (a : Word) : Word :=
  match s.target a with
  | .ram w => s.dmem.readWord w
  | .fallback v => v
  | .device => Config.deviceWord s.deviceReads
  | .text w => s.imem.readWord w

/-- The state after a read of byte address `a`: a device's next answer is a fresh free value (R114). -/
def State.afterBusRead (s : State) (a : Word) : State :=
  match s.target a with
  | .device => { s with deviceReads := s.deviceReads + 1 }
  | _ => s

/-- `BusWrite(a, strobe, data)` (R104): main memory takes the strobed bytes; a device or a fallback value takes none of main
memory with it, and program text is not written (the store is refused before, log 12). -/
def State.busWrite (s : State) (a : Word) (strobe : BitVec 4) (data : Word) : State :=
  match s.target a with
  | .ram w => { s with dmem := s.dmem.writeLanes w strobe data }
  | _ => s

/-- The byte address lies in program text on this platform. -/
def State.hitsText (s : State) (a : Word) : Bool :=
  match s.target a with
  | .text _ => true
  | _ => false

/-! ### The register file (R30) -/

/-- Where register `i` ≠ 0 stands among x1 to x31. -/
theorem regSlot_lt (i : RegIdx) : i.toNat - 1 < 31 := by have := i.isLt; omega

/-- `RegRead`: x0 reads 0 (R30). -/
def regRead (rf : Vector Word 31) (i : RegIdx) : Word :=
  if i = 0#5 then 0#32 else rf[i.toNat - 1]'(regSlot_lt i)

/-- `RegWrite`: a write to x0 is discarded (R30). -/
def regWrite (rf : Vector Word 31) (i : RegIdx) (v : Word) : Vector Word 31 :=
  if i = 0#5 then rf else rf.set (i.toNat - 1) v (regSlot_lt i)

/-- `x[i]` (R14). -/
def State.reg (s : State) (i : RegIdx) : Word := regRead s.regs i

/-- `x[i] <- v` (R14). -/
def State.setReg (s : State) (i : RegIdx) (v : Word) : State := { s with regs := regWrite s.regs i v }

/-! ### The program counter (R14, R33) -/

/-- `pc <- t`. -/
def State.setPc (s : State) (t : Word) : State := { s with pc := t }

/-- The next instruction is at pc + 4, modulo 2^32 (R33, R201). -/
def State.advance (s : State) : State := s.setPc (s.pc + 4#32)

/-- The common end of an instruction that writes a register: `x[rd] <- v`, then pc + 4 (R201). -/
def State.retire (s : State) (rd : RegIdx) (v : Word) : State := (s.setReg rd v).advance

/-! ### The CSR file (R40 to R56) -/

/-- `CsrRead` (R51): an address outside the implemented set reads 0 (R52). -/
def State.csrRead (s : State) (a : CsrAddr) : Word :=
  match a with
  | 0x300#12 => s.mstatus
  | 0x301#12 => s.cfg.misa
  | 0x304#12 => s.mie
  | 0x305#12 => s.mtvec
  | 0x340#12 => s.mscratch
  | 0x341#12 => s.mepc
  | 0x342#12 => s.mcause
  | 0x343#12 => s.mtval
  | 0x344#12 => s.mip
  | 0xC00#12 => s.mcycle64.extractLsb' 0 32
  | 0xC80#12 => s.mcycle64.extractLsb' 32 32
  | 0xF11#12 => 0#32
  | 0xF12#12 => 0#32
  | 0xF13#12 => 0#32
  | 0xF14#12 => 0#32
  | _ => 0#32

/-- The seven CSRs that a CSR instruction can write (R53). -/
inductive CsrReg where | mstatus | mie | mtvec | mscratch | mepc | mcause | mtval
  deriving DecidableEq, Repr

/-- `CsrLegal` (R53): the register a CSR-instruction write changes and its new value, or no change. -/
def csrLegal (a : CsrAddr) (v : Word) : Option (CsrReg × Word) :=
  match a with
  | 0x300#12 => some (.mstatus, v)
  | 0x304#12 => some (.mie, v)
  | 0x305#12 => some (.mtvec, v &&& 0xFFFFFFFC#32)
  | 0x340#12 => some (.mscratch, v)
  | 0x341#12 => some (.mepc, v)
  | 0x342#12 => some (.mcause, v)
  | 0x343#12 => some (.mtval, v)
  | _ => none

/-- The value of one of the seven writable CSRs. -/
def State.csrReg (s : State) (r : CsrReg) : Word :=
  match r with
  | .mstatus => s.mstatus
  | .mie => s.mie
  | .mtvec => s.mtvec
  | .mscratch => s.mscratch
  | .mepc => s.mepc
  | .mcause => s.mcause
  | .mtval => s.mtval

/-- Give one of the seven writable CSRs a value. -/
def State.setCsrReg (s : State) (r : CsrReg) (v : Word) : State :=
  match r with
  | .mstatus => { s with mstatus := v }
  | .mie => { s with mie := v }
  | .mtvec => { s with mtvec := v }
  | .mscratch => { s with mscratch := v }
  | .mepc => { s with mepc := v }
  | .mcause => { s with mcause := v }
  | .mtval => { s with mtval := v }

/-- `csr[a] <- v` of a CSR instruction when the trap controller writes nothing (R53, R55). -/
def State.csrWrite (s : State) (a : CsrAddr) (v : Word) : State :=
  match csrLegal a v with
  | some (r, v') => s.setCsrReg r v'
  | none => s

/-- What address `a` reads after a CSR-instruction write of `v` to it (R52, R53). -/
def State.csrAfterWrite (s : State) (a : CsrAddr) (v : Word) : Word :=
  match csrLegal a v with
  | some (_, v') => v'
  | none => s.csrRead a

/-- The common body of the six CSR instructions (R311 to R318): the old value goes to rd, the new one to the CSR. The operand is
read before rd is written (R313). -/
def State.csrModify (s : State) (op : CsrOp) (rd : RegIdx) (csr : CsrAddr) (operand : Word) : State :=
  (s.csrWrite csr (csrNew op (s.csrRead csr) operand)).retire rd (s.csrRead csr)

/-! ### Taking a trap and returning from one (R354 to R370) -/

/-- `mcause` of each trap cause (R350). -/
def causeBreakpoint : Word := 0x00000003#32
def causeEnvCallM : Word := 0x0000000B#32
def causeExternal : Word := 0x8000000B#32
def causeTimer : Word := 0x80000007#32

/-- `mstatus` after a trap entry (R360): MPIE takes MIE, MIE becomes 0, the other bits stay. -/
def mstatusOnEntry (m : Word) : Word :=
  (m &&& ~~~0x00000088#32) ||| (((m.extractLsb' 3 1).zeroExtend 32) <<< 7)

/-- `mstatus` after a trap return (R370): MIE takes MPIE, MPIE becomes 1, the other bits stay. -/
def mstatusOnReturn (m : Word) : Word :=
  (m &&& ~~~0x00000088#32) ||| (((m.extractLsb' 7 1).zeroExtend 32) <<< 3) ||| 0x00000080#32

/-- TAKING A TRAP, `Entry(cause, epc)` (R360): `mepc`, `mcause` and `mstatus` of `t` are written and its PC goes to the handler.
`mstatus` and `mtvec` are read from the snapshot `s`, the state at the start of the cycle (R358, R363); `t` is `s` itself for ECALL
and EBREAK, and the state the interrupted instruction leaves for an interrupt, whose writes to those three CSRs are thereby
discarded (R366). -/
def State.takeTrap (s t : State) (cause epc : Word) : State :=
  { t with mepc := epc, mcause := cause, mstatus := mstatusOnEntry s.mstatus, pc := s.mtvec }

/-- RETURNING FROM A TRAP (R370): `mstatus` is restored and the PC goes to `mepc`; nothing else changes (R371). -/
def State.trapReturn (s : State) : State :=
  { s with mstatus := mstatusOnReturn s.mstatus, pc := s.mepc }

/-- The interrupt to take in a cycle with these inputs when EX holds a valid instruction, by its cause (R354, R355, R359): the
levels of the current cycle against the enables of the snapshot. -/
def State.interrupt (s : State) (inp : Inputs) : Option Word :=
  let extP := inp.irqExt && s.mie.getLsbD 11
  let timP := inp.irqTimer && s.mie.getLsbD 7
  if s.mstatus.getLsbD 3 && (extP || timP) then
    some (if extP && timP then (if s.cfg.irqTimerFirst then causeTimer else causeExternal)
          else if extP then causeExternal else causeTimer)
  else none

/-! ### The clock edge -/

/-- `mip` after a cycle with these inputs (R48). -/
def mipOf (inp : Inputs) : Word :=
  ((BitVec.ofBool inp.irqExt).zeroExtend 32) <<< 11 ||| ((BitVec.ofBool inp.irqTimer).zeroExtend 32) <<< 7

/-- The inputs of the current cycle: the trace's first, or the quiet ones once it is used up (log 16). -/
def State.curInputs (s : State) : Inputs := s.inputs.headD {}

/-- What every clock edge does beside the instruction (R48, R49): `mip` follows the lines, the counter counts, the cycle's inputs
are used up. -/
def State.tick (s : State) (inp : Inputs) : State :=
  { s with mip := mipOf inp, mcycle64 := s.mcycle64 + 1#64, inputs := s.inputs.tail }

/-- The state after a cycle with `reset` = 1 (R403): R400, with the platform's memories and devices untouched (R406). -/
def State.afterReset (s : State) : State :=
  State.resetWith s.cfg s.imem s.dmem s.inputs.tail s.deviceReads

/-! ### The debug read port (R57): committed state, no side effects -/

def State.debugReg (s : State) (i : RegIdx) : Word := s.reg i
def State.debugCsr (s : State) (a : CsrAddr) : Word := s.csrRead a

end Sys2Proof.Machine
end

