-- ==== Sys2Proof/Machine/Integer.lean ====
section
/-! DEFINITION. The meanings of the 21 integer computational instructions (40_integer.md R204 to R224). Every one writes the
ALU's result to rd and goes on at pc + 4 (R201); none traps. The sources are read before rd is written (R203). -/

namespace Sys2Proof.Machine

/-- `Outcome` of a step of this machine. -/
abbrev Result := Host.Outcome State Fault Refusal

/-- A computation with a register and an immediate operand (R200, R201). -/
def execOpImm (op : AluOp) (rd rs1 : RegIdx) (imm : Word) (s : State) : Result :=
  .next (s.retire rd (alu op (s.reg rs1) imm))

/-- A computation with two register operands (R200, R201). -/
def execOp (op : AluOp) (rd rs1 rs2 : RegIdx) (s : State) : Result :=
  .next (s.retire rd (alu op (s.reg rs1) (s.reg rs2)))

/-- LUI (R204): `x[rd] <- immU`, computed as `x0 + immU`. -/
def execLui (rd : RegIdx) (imm20 : BitVec 20) (s : State) : Result := execOpImm .add rd 0#5 (immU imm20) s
/-- AUIPC (R205): `x[rd] <- pc + immU`. -/
def execAuipc (rd : RegIdx) (imm20 : BitVec 20) (s : State) : Result := .next (s.retire rd (alu .add s.pc (immU imm20)))

/-- ADDI (R206). -/
def execAddi (rd rs1 : RegIdx) (imm : BitVec 12) (s : State) : Result := execOpImm .add rd rs1 (immI imm) s
/-- SLTI (R207). -/
def execSlti (rd rs1 : RegIdx) (imm : BitVec 12) (s : State) : Result := execOpImm .slt rd rs1 (immI imm) s
/-- SLTIU (R208): the immediate is sign-extended, then compared as unsigned. -/
def execSltiu (rd rs1 : RegIdx) (imm : BitVec 12) (s : State) : Result := execOpImm .sltu rd rs1 (immI imm) s
/-- XORI (R209). -/
def execXori (rd rs1 : RegIdx) (imm : BitVec 12) (s : State) : Result := execOpImm .xor rd rs1 (immI imm) s
/-- ORI (R210). -/
def execOri (rd rs1 : RegIdx) (imm : BitVec 12) (s : State) : Result := execOpImm .or rd rs1 (immI imm) s
/-- ANDI (R211). -/
def execAndi (rd rs1 : RegIdx) (imm : BitVec 12) (s : State) : Result := execOpImm .and rd rs1 (immI imm) s
/-- SLLI (R212). -/
def execSlli (rd rs1 : RegIdx) (shamt : BitVec 5) (s : State) : Result := execOpImm .sll rd rs1 (immShift 0b0000000#7 shamt) s
/-- SRLI (R213). -/
def execSrli (rd rs1 : RegIdx) (shamt : BitVec 5) (s : State) : Result := execOpImm .srl rd rs1 (immShift 0b0000000#7 shamt) s
/-- SRAI (R214): the immediate field reads as 0x400 + shamt, only `imm[4:0]` is used. -/
def execSrai (rd rs1 : RegIdx) (shamt : BitVec 5) (s : State) : Result := execOpImm .sra rd rs1 (immShift 0b0100000#7 shamt) s

/-- ADD (R215). -/
def execAdd (rd rs1 rs2 : RegIdx) (s : State) : Result := execOp .add rd rs1 rs2 s
/-- SUB (R216). -/
def execSub (rd rs1 rs2 : RegIdx) (s : State) : Result := execOp .sub rd rs1 rs2 s
/-- SLL (R217). -/
def execSll (rd rs1 rs2 : RegIdx) (s : State) : Result := execOp .sll rd rs1 rs2 s
/-- SLT (R218). -/
def execSlt (rd rs1 rs2 : RegIdx) (s : State) : Result := execOp .slt rd rs1 rs2 s
/-- SLTU (R219). -/
def execSltu (rd rs1 rs2 : RegIdx) (s : State) : Result := execOp .sltu rd rs1 rs2 s
/-- XOR (R220). -/
def execXor (rd rs1 rs2 : RegIdx) (s : State) : Result := execOp .xor rd rs1 rs2 s
/-- SRL (R221). -/
def execSrl (rd rs1 rs2 : RegIdx) (s : State) : Result := execOp .srl rd rs1 rs2 s
/-- SRA (R222). -/
def execSra (rd rs1 rs2 : RegIdx) (s : State) : Result := execOp .sra rd rs1 rs2 s
/-- OR (R223). -/
def execOr (rd rs1 rs2 : RegIdx) (s : State) : Result := execOp .or rd rs1 rs2 s
/-- AND (R224). -/
def execAnd (rd rs1 rs2 : RegIdx) (s : State) : Result := execOp .and rd rs1 rs2 s

end Sys2Proof.Machine
end

