-- ==== Sys2Proof/Machine/ControlTransfer.lean ====
section
/-! DEFINITION. The meanings of the 8 control-transfer instructions (41_control_transfer.md R250 to R262). No target raises an
exception: one with bits 1:0 ≠ 00 is taken as it is, and the fetch there is what stops (R253, R122). -/

namespace Sys2Proof.Machine

/-- Link and jump: `x[rd] <- pc + 4; pc <- t` (R255, R256). -/
def State.linkTo (s : State) (rd : RegIdx) (t : Word) : State := (s.setReg rd (s.pc + 4#32)).setPc t

/-- A branch by its funct3 (R250, R251): `pc + immB` if the condition holds, else pc + 4; no register is written. -/
def execBranch (f3 : BitVec 3) (rs1 rs2 : RegIdx) (off : BitVec 13) (s : State) : Result :=
  .next (if branchCond f3 (s.reg rs1) (s.reg rs2) then s.setPc (s.pc + immB off) else s.advance)

/-- JAL (R255). -/
def execJal (rd : RegIdx) (off : BitVec 21) (s : State) : Result := .next (s.linkTo rd (s.pc + immJ off))
/-- JALR (R256): the target uses the old `x[rs1]`. -/
def execJalr (rd rs1 : RegIdx) (imm : BitVec 12) (s : State) : Result :=
  .next (s.linkTo rd (jalrTarget (s.reg rs1) (immI imm)))
/-- BEQ (R257). -/
def execBeq (rs1 rs2 : RegIdx) (off : BitVec 13) (s : State) : Result := execBranch 0b000#3 rs1 rs2 off s
/-- BNE (R258). -/
def execBne (rs1 rs2 : RegIdx) (off : BitVec 13) (s : State) : Result := execBranch 0b001#3 rs1 rs2 off s
/-- BLT (R259). -/
def execBlt (rs1 rs2 : RegIdx) (off : BitVec 13) (s : State) : Result := execBranch 0b100#3 rs1 rs2 off s
/-- BGE (R260). -/
def execBge (rs1 rs2 : RegIdx) (off : BitVec 13) (s : State) : Result := execBranch 0b101#3 rs1 rs2 off s
/-- BLTU (R261). -/
def execBltu (rs1 rs2 : RegIdx) (off : BitVec 13) (s : State) : Result := execBranch 0b110#3 rs1 rs2 off s
/-- BGEU (R262). -/
def execBgeu (rs1 rs2 : RegIdx) (off : BitVec 13) (s : State) : Result := execBranch 0b111#3 rs1 rs2 off s

end Sys2Proof.Machine
end

