-- ==== Sys2Proof/Machine/LoadStore.lean ====
section
/-! DEFINITION. The meanings of the 8 loads and stores (42_load_store.md R280 to R289). None raises an exception: a misaligned
address uses the lane rule (R108, R112, log 10), an address that is not main memory is the platform's (R115). -/

namespace Sys2Proof.Machine

/-- The effective address `x[rs1] + imm`, modulo 2^32 (R102, R280). -/
def State.ea (s : State) (rs1 : RegIdx) (imm : BitVec 12) : Word := alu .add (s.reg rs1) (immI imm)

/-- A load by its funct3 (R280): one bus read, the lane extracted and extended to rd, pc + 4. A load to x0 still reads (R281). -/
def execLoad (f3 : BitVec 3) (rd rs1 : RegIdx) (imm : BitVec 12) (s : State) : Result :=
  .next ((s.afterBusRead (s.ea rs1 imm)).retire rd (loadExtract f3 (laneOf (s.ea rs1 imm)) (s.busRead (s.ea rs1 imm))))

/-- `MemWrite(ea, n, v)` by funct3 (R15, R110, R111): strobe and data of the lane, one bus write. -/
def State.storeAt (s : State) (f3 : BitVec 3) (ea v : Word) : State :=
  s.busWrite ea (storeStrobe f3 (laneOf ea)) (storeData f3 (laneOf ea) v)

/-- A store by its funct3 (R280): one bus write, no register written, pc + 4. A store into program text is refused (R123). -/
def execStore (f3 : BitVec 3) (rs1 rs2 : RegIdx) (imm : BitVec 12) (s : State) : Result :=
  if s.hitsText (s.ea rs1 imm) then .refused .storeIntoProgramText
  else .next (s.storeAt f3 (s.ea rs1 imm) (s.reg rs2)).advance

/-- LB (R282). -/
def execLb (rd rs1 : RegIdx) (imm : BitVec 12) (s : State) : Result := execLoad 0b000#3 rd rs1 imm s
/-- LH (R283). -/
def execLh (rd rs1 : RegIdx) (imm : BitVec 12) (s : State) : Result := execLoad 0b001#3 rd rs1 imm s
/-- LW (R284). -/
def execLw (rd rs1 : RegIdx) (imm : BitVec 12) (s : State) : Result := execLoad 0b010#3 rd rs1 imm s
/-- LBU (R285). -/
def execLbu (rd rs1 : RegIdx) (imm : BitVec 12) (s : State) : Result := execLoad 0b100#3 rd rs1 imm s
/-- LHU (R286). -/
def execLhu (rd rs1 : RegIdx) (imm : BitVec 12) (s : State) : Result := execLoad 0b101#3 rd rs1 imm s
/-- SB (R287). -/
def execSb (rs1 rs2 : RegIdx) (imm : BitVec 12) (s : State) : Result := execStore 0b000#3 rs1 rs2 imm s
/-- SH (R288). -/
def execSh (rs1 rs2 : RegIdx) (imm : BitVec 12) (s : State) : Result := execStore 0b001#3 rs1 rs2 imm s
/-- SW (R289). -/
def execSw (rs1 rs2 : RegIdx) (imm : BitVec 12) (s : State) : Result := execStore 0b010#3 rs1 rs2 imm s

end Sys2Proof.Machine
end

