-- ==== Sys2Proof/Machine/System.lean ====
section
/-! DEFINITION. The meanings of the 6 CSR instructions, ECALL, EBREAK, MRET and FENCE, and the default arm of every word that is no
instruction (43_system_csr.md R310 to R331). -/

namespace Sys2Proof.Machine

/-- CSRRW (R313). -/
def execCsrrw (rd : RegIdx) (csr : CsrAddr) (rs1 : RegIdx) (s : State) : Result :=
  .next (s.csrModify .write rd csr (s.reg rs1))
/-- CSRRS (R314). -/
def execCsrrs (rd : RegIdx) (csr : CsrAddr) (rs1 : RegIdx) (s : State) : Result :=
  .next (s.csrModify .set rd csr (s.reg rs1))
/-- CSRRC (R315). -/
def execCsrrc (rd : RegIdx) (csr : CsrAddr) (rs1 : RegIdx) (s : State) : Result :=
  .next (s.csrModify .clear rd csr (s.reg rs1))
/-- CSRRWI (R316). -/
def execCsrrwi (rd : RegIdx) (csr : CsrAddr) (uimm : BitVec 5) (s : State) : Result :=
  .next (s.csrModify .write rd csr (uimmWord uimm))
/-- CSRRSI (R317). -/
def execCsrrsi (rd : RegIdx) (csr : CsrAddr) (uimm : BitVec 5) (s : State) : Result :=
  .next (s.csrModify .set rd csr (uimmWord uimm))
/-- CSRRCI (R318). -/
def execCsrrci (rd : RegIdx) (csr : CsrAddr) (uimm : BitVec 5) (s : State) : Result :=
  .next (s.csrModify .clear rd csr (uimmWord uimm))

/-- ECALL (R320): the environment-call trap, `mepc` = the ECALL's own address (R362). -/
def execEcall (s : State) : Result := .next (s.takeTrap s causeEnvCallM s.pc)
/-- EBREAK (R321): the breakpoint trap. -/
def execEbreak (s : State) : Result := .next (s.takeTrap s causeBreakpoint s.pc)
/-- MRET (R322). -/
def execMret (s : State) : Result := .next s.trapReturn
/-- FENCE (R330): no effect but pc + 4; every field is ignored. -/
def execFence (_rd _rs1 : RegIdx) (_fm _pred _succ : BitVec 4) (s : State) : Result := .next s.advance

/-- The default arm (R171, R331): a word that is no instruction writes nothing, raises no trap, and goes on at pc + 4 (log 9). -/
def execDefault (s : State) : Result := .next s.advance

end Sys2Proof.Machine
end

