-- ==== Sys2Proof/Machine/Control.lean ====
section
/-! DEFINITION. The control vector (30_encoding.md R157 to R162): what decode gives the datapath for each instruction, and for
the default arm. The pipeline (Machine/Pipeline.lean) runs on it; the instruction level (Machine/Cycle.lean) takes from it which
instructions redirect, load or belong to the trap controller. -/

namespace Sys2Proof.Machine

/-- The decoder's immediate output (R157). -/
def immOf : Instr → Word
  | .lui _ imm | .auipc _ imm => immU imm
  | .addi _ _ imm | .slti _ _ imm | .sltiu _ _ imm | .xori _ _ imm | .ori _ _ imm | .andi _ _ imm => immI imm
  | .slli _ _ shamt | .srli _ _ shamt => immShift 0b0000000#7 shamt
  | .srai _ _ shamt => immShift 0b0100000#7 shamt
  | .add _ _ _ | .sub _ _ _ | .sll _ _ _ | .slt _ _ _ | .sltu _ _ _ => 0#32
  | .xor _ _ _ | .srl _ _ _ | .sra _ _ _ | .or _ _ _ | .and _ _ _ => 0#32
  | .jal _ off => immJ off
  | .jalr _ _ imm => immI imm
  | .beq _ _ off | .bne _ _ off | .blt _ _ off | .bge _ _ off | .bltu _ _ off | .bgeu _ _ off => immB off
  | .lb _ _ imm | .lh _ _ imm | .lw _ _ imm | .lbu _ _ imm | .lhu _ _ imm => immI imm
  | .sb _ _ imm | .sh _ _ imm | .sw _ _ imm => immI imm
  | .csrrw _ _ _ | .csrrs _ _ _ | .csrrc _ _ _ | .csrrwi _ _ _ | .csrrsi _ _ _ | .csrrci _ _ _ => 0#32
  | .ecall | .ebreak | .mret => 0#32
  | .fence _ _ fm pred succ => immI (fm ++ pred ++ succ)

/-- OP-IMM row of R162. -/
def ctrlOpImm (op : AluOp) : Ctrl := { op2Sel := .imm, aluOp := op, regWrite := true }
/-- OP row of R162. -/
def ctrlOp (op : AluOp) : Ctrl := { aluOp := op, regWrite := true }
/-- Branch row of R162. -/
def ctrlBranch : Ctrl := { op1Sel := .pc, op2Sel := .imm, branch := true }
/-- Load row of R162. -/
def ctrlLoad : Ctrl := { op2Sel := .imm, memRead := true, wbSel := .mem, regWrite := true }
/-- Store row of R162. -/
def ctrlStore : Ctrl := { op2Sel := .imm, memWrite := true }
/-- CSR rows of R162. -/
def ctrlCsr (op : CsrOp) (imm : Bool) : Ctrl :=
  { wbSel := .csr, regWrite := true, csrWrite := true, csrOp := op, csrImm := imm }

/-- The control vector of each instruction (R162). `csrAddr` and `funct3` are raw fields of the word and are added by
`decodeStage`. -/
def ctrlOf : Instr → Ctrl
  | .lui _ _ => ctrlOpImm .add
  | .auipc _ _ => { op1Sel := .pc, op2Sel := .imm, regWrite := true }
  | .addi _ _ _ => ctrlOpImm .add
  | .slti _ _ _ => ctrlOpImm .slt
  | .sltiu _ _ _ => ctrlOpImm .sltu
  | .xori _ _ _ => ctrlOpImm .xor
  | .ori _ _ _ => ctrlOpImm .or
  | .andi _ _ _ => ctrlOpImm .and
  | .slli _ _ _ => ctrlOpImm .sll
  | .srli _ _ _ => ctrlOpImm .srl
  | .srai _ _ _ => ctrlOpImm .sra
  | .add _ _ _ => ctrlOp .add
  | .sub _ _ _ => ctrlOp .sub
  | .sll _ _ _ => ctrlOp .sll
  | .slt _ _ _ => ctrlOp .slt
  | .sltu _ _ _ => ctrlOp .sltu
  | .xor _ _ _ => ctrlOp .xor
  | .srl _ _ _ => ctrlOp .srl
  | .sra _ _ _ => ctrlOp .sra
  | .or _ _ _ => ctrlOp .or
  | .and _ _ _ => ctrlOp .and
  | .jal _ _ => { op1Sel := .pc, op2Sel := .imm, wbSel := .pc4, regWrite := true, jal := true }
  | .jalr _ _ _ => { op2Sel := .imm, wbSel := .pc4, regWrite := true, jalr := true }
  | .beq _ _ _ | .bne _ _ _ | .blt _ _ _ | .bge _ _ _ | .bltu _ _ _ | .bgeu _ _ _ => ctrlBranch
  | .lb _ _ _ | .lh _ _ _ | .lw _ _ _ | .lbu _ _ _ | .lhu _ _ _ => ctrlLoad
  | .sb _ _ _ | .sh _ _ _ | .sw _ _ _ => ctrlStore
  | .csrrw _ _ _ => ctrlCsr .write false
  | .csrrs _ _ _ => ctrlCsr .set false
  | .csrrc _ _ _ => ctrlCsr .clear false
  | .csrrwi _ _ _ => ctrlCsr .write true
  | .csrrsi _ _ _ => ctrlCsr .set true
  | .csrrci _ _ _ => ctrlCsr .clear true
  | .ecall => { sys := .ecall }
  | .ebreak => { sys := .ebreak }
  | .mret => { sys := .mret }
  | .fence _ _ _ _ _ => { op2Sel := .imm }

/-- What decode gives for a word (R160, R161). -/
structure Decoded where
  rs1 : RegIdx
  rs2 : RegIdx
  rd : RegIdx
  imm : Word
  ctrl : Ctrl
  deriving DecidableEq, Repr

/-- The immediate and control vector of a word, recognised or not: the default arm has immediate 0 and the default row (R157,
R162, R171). -/
def immCtrl (w : Word) : Word × Ctrl :=
  match decodeWord w with
  | .ok i => (immOf i, ctrlOf i)
  | .error _ => (0#32, {})

/-- `Decode` of R415: a pure function of the instruction word. -/
def decodeStage (w : Word) : Decoded where
  rs1 := rs1Index w
  rs2 := rs2Index w
  rd := rdOf w
  imm := (immCtrl w).1
  ctrl := { (immCtrl w).2 with csrAddr := csrOf w, funct3 := funct3Of w }

end Sys2Proof.Machine
end

