-- ==== Sys2Proof/Machine/Pipeline.lean ====
section
/-! DEFINITION. The cycle level (70_reset_and_hazards.md R400 to R445): the five-stage pipeline, one clock cycle at a time. Every
signal is a function of the committed state and the cycle's inputs (R411); all state commits together (R425). -/

namespace Sys2Proof.Machine

/-! ### Fetch (R120, R416) -/

/-- The instruction word the platform presents for a fetch address: the word of the instruction memory that contains it. -/
def State.fetchWord (s : State) (pc : Word) : Word := s.imem.readWord (wordAddr pc)

/-- `pc[1:0] = 00`: any other fetch is the platform's and stops the model (R122, log 11). -/
def alignedPc (pc : Word) : Bool := pc.extractLsb' 0 2 == 0#2

/-! ### Write back (R412) -/

/-- `wb_val`: "selects among ALU result, memory read data, PC+4 ..., or CSR read-data". -/
def MemWb.wbVal (m : MemWb) : Word :=
  match m.wbSel with
  | .alu => m.aluResult
  | .mem => m.memData
  | .pc4 => m.pc4
  | .csr => m.csrRdata

/-- `wb_we` (R412). -/
def MemWb.we (m : MemWb) : Bool := m.valid && m.regWrite && m.rd != 0#5

/-- The register-file commit of a MEM/WB entry: "at most one write commit per cycle" (R412). -/
def State.commitWb (s : State) (m : MemWb) : State := if m.we then s.setReg m.rd m.wbVal else s

/-! ### Memory access (R413) -/

/-- `dmem_re` and `dmem_we` (R103, R104). -/
def ExMem.re (x : ExMem) : Bool := x.valid && x.memRead
def ExMem.we (x : ExMem) : Bool := x.valid && x.memWrite

/-- `mem_data`: the extracted load data, 0 when nothing is read (R413). -/
def State.memData (s : State) (x : ExMem) : Word :=
  if x.re then loadExtract x.funct3 (laneOf x.aluResult) (s.busRead x.aluResult) else 0#32

/-- The MEM/WB entry an EX/MEM entry becomes (R424). -/
def State.toMemWb (s : State) (x : ExMem) : MemWb where
  valid := x.valid
  rd := x.rd
  regWrite := x.regWrite
  wbSel := x.wbSel
  aluResult := x.aluResult
  memData := s.memData x
  pc4 := x.pc4
  csrRdata := x.csrRdata

/-- What the bus transaction of an EX/MEM entry leaves in the platform (R103, R104): one read or one write. -/
def State.memEdge (s : State) (x : ExMem) : State :=
  let s' := if x.re then s.afterBusRead x.aluResult else s
  if x.we then s'.storeAt x.funct3 x.aluResult x.storeData else s'

/-- `exmem_fwd` (R413): the producer's write-back value. The `mem` arm is unreachable (R437) and gives the address (D48). -/
def ExMem.fwdVal (x : ExMem) : Word :=
  match x.wbSel with
  | .alu => x.aluResult
  | .pc4 => x.pc4
  | .csr => x.csrRdata
  | .mem => x.aluResult

/-! ### Forwarding (R433 to R436) -/

/-- The EX-stage forwarding mux (R433): EX/MEM, the younger producer, before MEM/WB; x0 is never forwarded. -/
def State.fwd (s : State) (r : RegIdx) (v : Word) : Word :=
  if r = 0#5 then v
  else if s.pipe.exMem.valid && s.pipe.exMem.regWrite && s.pipe.exMem.rd == r then s.pipe.exMem.fwdVal
  else if s.pipe.memWb.valid && s.pipe.memWb.regWrite && s.pipe.memWb.rd == r then s.pipe.memWb.wbVal
  else v

/-- The register read in ID with the write-back bypass (R436). -/
def State.rfRead (s : State) (i : RegIdx) : Word :=
  if i = 0#5 then 0#32
  else if s.pipe.memWb.we && s.pipe.memWb.rd == i then s.pipe.memWb.wbVal
  else s.reg i

/-! ### Execute (R414) -/

/-- `a` and `b` (R435). -/
def State.exA (s : State) : Word := s.fwd s.pipe.idEx.rs1 s.pipe.idEx.rs1Val
def State.exB (s : State) : Word := s.fwd s.pipe.idEx.rs2 s.pipe.idEx.rs2Val

/-- `alu_result` (R414). -/
def State.exAlu (s : State) : Word :=
  alu s.pipe.idEx.ctrl.aluOp
    (match s.pipe.idEx.ctrl.op1Sel with | .pc => s.pipe.idEx.pc | .reg => s.exA)
    (match s.pipe.idEx.ctrl.op2Sel with | .imm => s.pipe.idEx.imm | .reg => s.exB)

/-- `jump_target` (R250). -/
def State.exJumpTarget (s : State) : Word :=
  if s.pipe.idEx.ctrl.jalr then jalrTarget s.exA s.pipe.idEx.imm else s.pipe.idEx.pc + s.pipe.idEx.imm

/-- `jump_req` (R250). -/
def State.exJumpReq (s : State) : Bool :=
  s.pipe.idEx.valid && (s.pipe.idEx.ctrl.jal || s.pipe.idEx.ctrl.jalr ||
    (s.pipe.idEx.ctrl.branch && branchCond s.pipe.idEx.ctrl.funct3 s.exA s.exB))

/-- `csr_old`: the combinational read of the snapshot (R310). -/
def State.exCsrOld (s : State) : Word := s.csrRead s.pipe.idEx.ctrl.csrAddr

/-- `csr_new` (R312). -/
def State.exCsrNew (s : State) : Word :=
  csrNew s.pipe.idEx.ctrl.csrOp s.exCsrOld
    (if s.pipe.idEx.ctrl.csrImm then uimmWord (rs1fOf s.pipe.idEx.instr) else s.exA)

/-- The CPU write request, legalised (R311, R53). -/
def State.exCpuWrite (s : State) : Option (CsrReg × Word) :=
  if s.pipe.idEx.valid && s.pipe.idEx.ctrl.csrWrite then csrLegal s.pipe.idEx.ctrl.csrAddr s.exCsrNew else none

/-- What the trap controller does in a cycle (R359). -/
inductive TrapDecision where
  | none
  | entry (cause epc : Word)
  | ret
  deriving DecidableEq, Repr

/-- The trap controller (R356, R359): only a valid instruction in EX, an interrupt before the instruction's own trap. -/
def State.trapDecision (s : State) (inp : Inputs) : TrapDecision :=
  if !s.pipe.idEx.valid then .none
  else match s.interrupt inp with
    | some cause =>
      .entry cause
        (if s.pipe.idEx.ctrl.sys != .none then s.pipe.idEx.pc
         else if s.exJumpReq then s.exJumpTarget
         else s.pipe.idEx.pc + 4#32)
    | none =>
      match s.pipe.idEx.ctrl.sys with
      | .ecall => .entry causeEnvCallM s.pipe.idEx.pc
      | .ebreak => .entry causeBreakpoint s.pipe.idEx.pc
      | .mret => .ret
      | .none => .none

/-- The EX/MEM entry that the instruction in EX becomes (R423). -/
def State.toExMem (s : State) : ExMem where
  valid := s.pipe.idEx.valid
  pc := s.pipe.idEx.pc
  rd := s.pipe.idEx.rd
  regWrite := s.pipe.idEx.ctrl.regWrite
  wbSel := s.pipe.idEx.ctrl.wbSel
  aluResult := s.exAlu
  storeData := s.exB
  memRead := s.pipe.idEx.ctrl.memRead
  memWrite := s.pipe.idEx.ctrl.memWrite
  funct3 := s.pipe.idEx.ctrl.funct3
  pc4 := s.pipe.idEx.pc + 4#32
  csrRdata := s.exCsrOld

/-! ### Decode and the load-use hazard (R415, R430, R431) -/

/-- `load_use` (R430): the consumer's decoded indices against the load in EX, whether or not its format reads them (R431). -/
def State.loadUse (s : State) : Bool :=
  s.pipe.ifId.valid && s.pipe.idEx.valid && s.pipe.idEx.ctrl.memRead && s.pipe.idEx.rd != 0#5 &&
    (s.pipe.idEx.rd == rs1Index s.pipe.ifId.instr || s.pipe.idEx.rd == rs2Index s.pipe.ifId.instr)

/-- The ID/EX entry of the instruction in ID (R415, R422). -/
def State.toIdEx (s : State) : IdEx :=
  let d := decodeStage s.pipe.ifId.instr
  { valid := true, pc := s.pipe.ifId.pc, instr := s.pipe.ifId.instr, rs1 := d.rs1, rs2 := d.rs2, rd := d.rd,
    rs1Val := s.rfRead d.rs1, rs2Val := s.rfRead d.rs2, imm := d.imm, ctrl := d.ctrl }

/-! ### The commit (R417 to R425) -/

/-- `flush` (R417, R440). -/
def State.flush (s : State) (inp : Inputs) : Bool := s.trapDecision inp != .none || s.exJumpReq

/-- `pc'` (R420): "strict priority" of trap, taken jump, and the sequential advance, which alone is held. -/
def State.nextPc (s : State) (inp : Inputs) : Word :=
  match s.trapDecision inp with
  | .entry _ _ => s.mtvec
  | .ret => s.mepc
  | .none =>
    if s.exJumpReq then s.exJumpTarget
    else if s.loadUse then s.pc
    else if !inp.imemValid then s.pc
    else s.pc + 4#32

/-- `IFID'` (R421): "Flush has priority over stall". -/
def State.nextIfId (s : State) (inp : Inputs) : IfId :=
  if s.flush inp then {}
  else if s.loadUse then s.pipe.ifId
  else if inp.imemValid then { valid := true, pc := s.pc, instr := s.fetchWord s.pc }
  else {}

/-- `IDEX'` (R422). -/
def State.nextIdEx (s : State) (inp : Inputs) : IdEx :=
  if s.flush inp || s.loadUse || !s.pipe.ifId.valid then {} else s.toIdEx

/-- `trap_wr` and `trap_value` (R365): what the trap controller writes to a CSR. -/
def State.trapWrite (s : State) (td : TrapDecision) (r : CsrReg) : Option Word :=
  match td with
  | .none => none
  | .entry cause epc =>
    match r with
    | .mstatus => some (mstatusOnEntry s.mstatus)
    | .mepc => some epc
    | .mcause => some cause
    | .mie => none
    | .mtvec => none
    | .mscratch => none
    | .mtval => none
  | .ret =>
    match r with
    | .mstatus => some (mstatusOnReturn s.mstatus)
    | .mepc => none
    | .mcause => none
    | .mie => none
    | .mtvec => none
    | .mscratch => none
    | .mtval => none

/-- What the CPU write request asks for one register. -/
def cpuWrite (w : Option (CsrReg × Word)) (r : CsrReg) : Option Word :=
  match w with
  | some (r', v) => if r' = r then some v else none
  | none => none

/-- The arbitration of R55: "trap-controller write always dominant", else the CPU's write, else no write. -/
def arbitrate (trap cpu : Option Word) (old : Word) : Word :=
  match trap with
  | some v => v
  | none =>
    match cpu with
    | some v => v
    | none => old

/-- The next value of one writable CSR (R55). -/
def State.nextCsr (s : State) (inp : Inputs) (r : CsrReg) : Word :=
  arbitrate (s.trapWrite (s.trapDecision inp) r) (cpuWrite s.exCpuWrite r) (s.csrReg r)

/-- The CSR file after the cycle (R55), without `mip` and the counter. -/
def State.csrEdge (s : State) (inp : Inputs) (t : State) : State :=
  { t with
    mstatus := s.nextCsr inp .mstatus
    mie := s.nextCsr inp .mie
    mtvec := s.nextCsr inp .mtvec
    mscratch := s.nextCsr inp .mscratch
    mepc := s.nextCsr inp .mepc
    mcause := s.nextCsr inp .mcause
    mtval := s.nextCsr inp .mtval }

/-- The PC and the stage registers after the cycle (R420 to R424). -/
def State.pipeEdge (s : State) (inp : Inputs) (t : State) : State :=
  { t with
    pc := s.nextPc inp
    pipe := { ifId := s.nextIfId inp, idEx := s.nextIdEx inp, exMem := s.toExMem, memWb := s.toMemWb s.pipe.exMem }
    front := {} }

/-- A fetched word goes into IF/ID in this cycle. -/
def State.latchesFetch (s : State) (inp : Inputs) : Bool := !s.flush inp && !s.loadUse && inp.imemValid

/-- The instruction in EX is a store into program text (R123, log 12). -/
def State.storesText (s : State) : Bool :=
  s.pipe.idEx.valid && s.pipe.idEx.ctrl.memWrite && s.hitsText s.exAlu

/-- Everything that commits at the edge of one cycle without reset (R425). -/
def State.commit (s : State) (inp : Inputs) : State :=
  (s.pipeEdge inp (s.csrEdge inp ((s.memEdge s.pipe.exMem).commitWb s.pipe.memWb))).tick inp

/-- ONE CLOCK CYCLE (R426), with the current inputs of the trace. It stops where the model stops: at a store into program text,
found when its address is known (log 12), and at a misaligned fetch that would enter the pipeline (log 11). -/
def State.cycle (s : State) : Host.Outcome State Fault Refusal :=
  if s.curInputs.reset then .next s.afterReset
  else if s.storesText then .refused .storeIntoProgramText
  else if s.latchesFetch s.curInputs && !alignedPc s.pc then .fault .misalignedFetch
  else .next (s.commit s.curInputs)

/-! ### The outputs of a cycle (R70, R71): combinational functions of the committed state -/

/-- The output ports (R70); the debug port is `State.debugReg` and `State.debugCsr`. -/
structure Outputs where
  imemAddr : Word
  dmemAddr : Word
  dmemRe : Bool
  dmemWe : Bool
  dmemWstrb : BitVec 4
  dmemWdata : Word
  deriving DecidableEq, Repr

/-- The outputs of R413 and R416. -/
def State.outputs (s : State) : Outputs where
  imemAddr := s.pc
  dmemAddr := s.pipe.exMem.aluResult
  dmemRe := s.pipe.exMem.re
  dmemWe := s.pipe.exMem.we
  dmemWstrb := if s.pipe.exMem.we then storeStrobe s.pipe.exMem.funct3 (laneOf s.pipe.exMem.aluResult) else 0b0000#4
  dmemWdata := storeData s.pipe.exMem.funct3 (laneOf s.pipe.exMem.aluResult) s.pipe.exMem.storeData

/-- `k` clock cycles, stopping at the first fault or refusal. -/
def State.cycles : Nat → State → Host.Outcome State Fault Refusal
  | 0, s => .next s
  | k + 1, s =>
    match s.cycle with
    | .next t => State.cycles k t
    | .fault f => .fault f
    | .refused r => .refused r

end Sys2Proof.Machine
end

