-- ==== Sys2Proof/Machine/Cycle.lean ====
section
/-! DEFINITION. The instruction level (70_reset_and_hazards.md R450) and its timing: what `step` is made of. One step takes the
clock cycles up to and including the one in which the next instruction is in EX, and gives the instruction its whole effect in
that cycle; `State.settle` completes whatever older instructions the pipeline still holds (log 15). -/

namespace Sys2Proof.Machine

/-- The address of the next instruction to reach EX (R450): the one in ID/EX, else the one in IF/ID, else the one at the PC. -/
def State.oldestPc (s : State) : Word :=
  if s.pipe.idEx.valid then s.pipe.idEx.pc else if s.pipe.ifId.valid then s.pipe.ifId.pc else s.pc

/-- The instruction-level state of a pipeline state (R450): the instructions past EX, in EX/MEM and MEM/WB, take their memory and
register effects, the oldest first; those before EX have had none, and are fetched again. A state with an empty pipeline is
left as it is. -/
def State.settle (s : State) : State :=
  let t := ((s.commitWb s.pipe.memWb).memEdge s.pipe.exMem).commitWb ((s.commitWb s.pipe.memWb).toMemWb s.pipe.exMem)
  { t with
    pc := s.oldestPc
    pipe := {}
    front := { inId := s.front.inId || s.pipe.ifId.valid, inEx := s.front.inEx || s.pipe.idEx.valid } }

/-- Execute a fetched word: the instruction it decodes to, or the default arm (R170, R171). -/
def execWord (w : Word) (s : State) : Host.Outcome State Fault Refusal :=
  match decodeWord w with
  | .ok i => exec i s
  | .error _ => execDefault s

/-- `jump_req` (R250) for the instruction `d` on the instruction-level registers. -/
def State.jumps (s : State) (d : Decoded) : Bool :=
  d.ctrl.jal || d.ctrl.jalr || (d.ctrl.branch && branchCond d.ctrl.funct3 (s.reg d.rs1) (s.reg d.rs2))

/-- The load-use hazard (R430) of the instruction `d` in EX with the one after it in ID. -/
def State.stalls (s : State) (d : Decoded) : Bool :=
  s.front.inId && d.ctrl.memRead && d.rd != 0#5 &&
    (d.rd == rs1Index (s.fetchWord (s.pc + 4#32)) || d.rd == rs2Index (s.fetchWord (s.pc + 4#32)))

/-- The front end after a cycle (R421, R422): a flush empties it, a stall holds ID and puts a bubble into EX, and otherwise what
was in ID goes into EX and a valid fetch goes into ID. -/
def FrontEnd.next (f : FrontEnd) (flush stall fetched : Bool) : FrontEnd :=
  if flush then {}
  else if stall then { inId := f.inId, inEx := false }
  else { inId := fetched, inEx := f.inId }

/-- The end of a cycle: the clock edge, and the front end as it is after it. -/
def State.endCycle (s : State) (inp : Inputs) (f : FrontEnd) : State := { s.tick inp with front := f }

/-- Go on from a next state. -/
def andThen (r : Host.Outcome State Fault Refusal) (f : State → State) : Host.Outcome State Fault Refusal :=
  match r with
  | .next t => .next (f t)
  | .fault x => .fault x
  | .refused x => .refused x

/-- A cycle with a bubble in EX (R356): no instruction, no trap; the front end moves on. -/
def State.bubbleCycle (s : State) (inp : Inputs) : Host.Outcome State Fault Refusal :=
  if inp.imemValid && !alignedPc s.pc then .fault .misalignedFetch
  else .next (s.endCycle inp (s.front.next false false inp.imemValid))

/-- The cycle in which the instruction at `pc` is in EX (R359, R361). An interrupt pre-empts a trap-class instruction; any other
instruction completes, and the interrupt is taken with the address of the instruction after it. -/
def State.exCycle (s : State) (inp : Inputs) : Host.Outcome State Fault Refusal :=
  let w := s.fetchWord s.pc
  let d := decodeStage w
  if !alignedPc s.pc then .fault .misalignedFetch
  else match s.interrupt inp with
    | some cause =>
      if d.ctrl.sys != .none then .next ((s.takeTrap s cause s.pc).endCycle inp {})
      else andThen (execWord w s) (fun t => (s.takeTrap t cause t.pc).endCycle inp {})
    | none =>
      andThen (execWord w s) (fun t =>
        t.endCycle inp (s.front.next (d.ctrl.sys != .none || s.jumps d) (s.stalls d) inp.imemValid))

/-- One clock cycle of the instruction level. -/
def State.instrCycle (s : State) : Host.Outcome State Fault Refusal :=
  if s.curInputs.reset then .next s.afterReset
  else if s.front.inEx then s.exCycle s.curInputs
  else s.bubbleCycle s.curInputs

/-- Clock cycles up to and including the one in which the next instruction is in EX, or in which reset is asserted. The fuel is
never used up (`State.stepFuel`). -/
def State.runToEx : Nat → State → Host.Outcome State Fault Refusal
  | 0, s => .next s
  | n + 1, s =>
    if s.curInputs.reset || s.front.inEx then s.instrCycle
    else match s.bubbleCycle s.curInputs with
      | .next t => State.runToEx n t
      | .fault f => .fault f
      | .refused r => .refused r

/-- Enough cycles: when the input trace is used up every fetch is valid, and two cycles later an instruction is in EX. -/
def State.stepFuel (s : State) : Nat := s.inputs.length + 3

/-- Write the four bytes of an instruction word at a fetch address. -/
def State.placeWord (s : State) (pc w : Word) : State :=
  { s with imem := s.imem.writeLanes (wordAddr pc) 0b1111#4 w }

end Sys2Proof.Machine
end

