-- ==== Sys2Proof/Machine/Step.lean ====
section
/-! DEFINITION. One step: the next instruction in program order. -/

namespace Sys2Proof.Machine

/-- ONE STEP of the instruction level (R450): older instructions complete, the clock runs until the next instruction is in EX, and
that instruction has its whole effect. A cycle with reset asserted ends the step in the reset state (R403). -/
def step (s : State) : Host.Outcome State Fault Refusal :=
  if s.curInputs.reset then .next s.afterReset else State.runToEx s.stepFuel s.settle

/-- `s` with the instruction word `w` stored where `step` fetches its next instruction, and no input that keeps the very next
step from running it: the pipeline settled, so that this instruction is the oldest one, and the input trace quiet, since a
scheduled reset would replace the instruction and an interrupt would pre-empt it (log 8). -/
def State.withFetchWord (s : State) (nbits w : Nat) : State :=
  { s.settle.placeWord s.oldestPc (BitVec.ofNat 32 (w % 2 ^ nbits)) with inputs := [] }

end Sys2Proof.Machine
end

