-- ==== Sys2Proof/Machine/Pseudo.lean ====
section
/-! DEFINITION. The assembler's view (30_encoding.md R180 to R182): the names of the registers and CSRs (10_state.md R31, R40), the line
of each instruction, and the pseudo-instructions with their expansions. No step uses it: the core sees only the words of the 47
instructions. The label operand of a pseudo-instruction stands here as what it encodes, `label - pc` (R180). -/

namespace Sys2Proof.Machine

/-- The ABI names of the registers (R31). -/
def abiNames : List (String × RegIdx) :=
  [("zero", 0#5), ("ra", 1#5), ("sp", 2#5), ("gp", 3#5), ("tp", 4#5), ("t0", 5#5), ("t1", 6#5), ("t2", 7#5)] ++
  [("s0", 8#5), ("fp", 8#5), ("s1", 9#5), ("a0", 10#5), ("a1", 11#5), ("a2", 12#5), ("a3", 13#5), ("a4", 14#5)] ++
  [("a5", 15#5), ("a6", 16#5), ("a7", 17#5), ("s2", 18#5), ("s3", 19#5), ("s4", 20#5), ("s5", 21#5), ("s6", 22#5)] ++
  [("s7", 23#5), ("s8", 24#5), ("s9", 25#5), ("s10", 26#5), ("s11", 27#5), ("t3", 28#5), ("t4", 29#5), ("t5", 30#5)] ++
  [("t6", 31#5)]

/-- The names of the implemented CSRs (R40). -/
def csrNames : List (String × CsrAddr) :=
  [("mstatus", 0x300#12), ("misa", 0x301#12), ("mie", 0x304#12), ("mtvec", 0x305#12), ("mscratch", 0x340#12)] ++
  [("mepc", 0x341#12), ("mcause", 0x342#12), ("mtval", 0x343#12), ("mip", 0x344#12), ("cycle", 0xC00#12)] ++
  [("cycleh", 0xC80#12), ("mvendorid", 0xF11#12), ("marchid", 0xF12#12), ("mimpid", 0xF13#12), ("mhartid", 0xF14#12)]

/-- `%hi`: the upper 20 bits, "rounded so that `(%hi << 12) + sext(%lo) = sym`" (R180). -/
def hi20 (v : Word) : BitVec 20 := (v + 0x800#32).extractLsb' 12 20
/-- `%lo`: the low 12 bits (R180). -/
def lo12 (v : Word) : BitVec 12 := v.extractLsb' 0 12

/-- An operand of an assembler line (R180). -/
inductive AsmOperand where
  /-- A register, `x0` to `x31` or its ABI name. -/
  | reg (i : RegIdx)
  /-- An immediate, in decimal or hexadecimal. -/
  | imm (v : Int)
  /-- `imm(rs1)`. -/
  | mem (off : Int) (base : RegIdx)
  /-- A label, at this address. -/
  | label (addr : Word)
  /-- A CSR, by name or number. -/
  | csr (a : CsrAddr)
  /-- A predecessor or successor set of FENCE. -/
  | fenceSet (set : BitVec 4)
  deriving DecidableEq, Repr

/-- The assembler line of the instruction at `pc`: the mnemonic, then the operands, the destination first (R180). The fields of FENCE
that the syntax has no operand for are not shown. -/
def asmLine (pc : Word) : Instr → String × List AsmOperand
  | .lui rd imm => ("lui", [.reg rd, .imm imm.toNat])
  | .auipc rd imm => ("auipc", [.reg rd, .imm imm.toNat])
  | .addi rd rs1 imm => ("addi", [.reg rd, .reg rs1, .imm imm.toInt])
  | .slti rd rs1 imm => ("slti", [.reg rd, .reg rs1, .imm imm.toInt])
  | .sltiu rd rs1 imm => ("sltiu", [.reg rd, .reg rs1, .imm imm.toInt])
  | .xori rd rs1 imm => ("xori", [.reg rd, .reg rs1, .imm imm.toInt])
  | .ori rd rs1 imm => ("ori", [.reg rd, .reg rs1, .imm imm.toInt])
  | .andi rd rs1 imm => ("andi", [.reg rd, .reg rs1, .imm imm.toInt])
  | .slli rd rs1 shamt => ("slli", [.reg rd, .reg rs1, .imm shamt.toNat])
  | .srli rd rs1 shamt => ("srli", [.reg rd, .reg rs1, .imm shamt.toNat])
  | .srai rd rs1 shamt => ("srai", [.reg rd, .reg rs1, .imm shamt.toNat])
  | .add rd rs1 rs2 => ("add", [.reg rd, .reg rs1, .reg rs2])
  | .sub rd rs1 rs2 => ("sub", [.reg rd, .reg rs1, .reg rs2])
  | .sll rd rs1 rs2 => ("sll", [.reg rd, .reg rs1, .reg rs2])
  | .slt rd rs1 rs2 => ("slt", [.reg rd, .reg rs1, .reg rs2])
  | .sltu rd rs1 rs2 => ("sltu", [.reg rd, .reg rs1, .reg rs2])
  | .xor rd rs1 rs2 => ("xor", [.reg rd, .reg rs1, .reg rs2])
  | .srl rd rs1 rs2 => ("srl", [.reg rd, .reg rs1, .reg rs2])
  | .sra rd rs1 rs2 => ("sra", [.reg rd, .reg rs1, .reg rs2])
  | .or rd rs1 rs2 => ("or", [.reg rd, .reg rs1, .reg rs2])
  | .and rd rs1 rs2 => ("and", [.reg rd, .reg rs1, .reg rs2])
  | .jal rd off => ("jal", [.reg rd, .label (pc + immJ off)])
  | .jalr rd rs1 imm => ("jalr", [.reg rd, .mem imm.toInt rs1])
  | .beq rs1 rs2 off => ("beq", [.reg rs1, .reg rs2, .label (pc + immB off)])
  | .bne rs1 rs2 off => ("bne", [.reg rs1, .reg rs2, .label (pc + immB off)])
  | .blt rs1 rs2 off => ("blt", [.reg rs1, .reg rs2, .label (pc + immB off)])
  | .bge rs1 rs2 off => ("bge", [.reg rs1, .reg rs2, .label (pc + immB off)])
  | .bltu rs1 rs2 off => ("bltu", [.reg rs1, .reg rs2, .label (pc + immB off)])
  | .bgeu rs1 rs2 off => ("bgeu", [.reg rs1, .reg rs2, .label (pc + immB off)])
  | .lb rd rs1 imm => ("lb", [.reg rd, .mem imm.toInt rs1])
  | .lh rd rs1 imm => ("lh", [.reg rd, .mem imm.toInt rs1])
  | .lw rd rs1 imm => ("lw", [.reg rd, .mem imm.toInt rs1])
  | .lbu rd rs1 imm => ("lbu", [.reg rd, .mem imm.toInt rs1])
  | .lhu rd rs1 imm => ("lhu", [.reg rd, .mem imm.toInt rs1])
  | .sb rs1 rs2 imm => ("sb", [.reg rs2, .mem imm.toInt rs1])
  | .sh rs1 rs2 imm => ("sh", [.reg rs2, .mem imm.toInt rs1])
  | .sw rs1 rs2 imm => ("sw", [.reg rs2, .mem imm.toInt rs1])
  | .csrrw rd csr rs1 => ("csrrw", [.reg rd, .csr csr, .reg rs1])
  | .csrrs rd csr rs1 => ("csrrs", [.reg rd, .csr csr, .reg rs1])
  | .csrrc rd csr rs1 => ("csrrc", [.reg rd, .csr csr, .reg rs1])
  | .csrrwi rd csr u => ("csrrwi", [.reg rd, .csr csr, .imm u.toNat])
  | .csrrsi rd csr u => ("csrrsi", [.reg rd, .csr csr, .imm u.toNat])
  | .csrrci rd csr u => ("csrrci", [.reg rd, .csr csr, .imm u.toNat])
  | .ecall => ("ecall", [])
  | .ebreak => ("ebreak", [])
  | .mret => ("mret", [])
  | .fence _ _ _ pred succ => ("fence", [.fenceSet pred, .fenceSet succ])

/-- The pseudo-instructions of R181 and R182. `delta` is `sym - pc` of the first instruction of the expansion. -/
inductive Pseudo where
  | nop
  | li (rd : RegIdx) (imm : Word)
  | la (rd : RegIdx) (delta : Word)
  | mv (rd rs : RegIdx)
  | not (rd rs : RegIdx)
  | neg (rd rs : RegIdx)
  | seqz (rd rs : RegIdx)
  | snez (rd rs : RegIdx)
  | sltz (rd rs : RegIdx)
  | sgtz (rd rs : RegIdx)
  | beqz (rs : RegIdx) (off : BitVec 13)
  | bnez (rs : RegIdx) (off : BitVec 13)
  | blez (rs : RegIdx) (off : BitVec 13)
  | bgez (rs : RegIdx) (off : BitVec 13)
  | bltz (rs : RegIdx) (off : BitVec 13)
  | bgtz (rs : RegIdx) (off : BitVec 13)
  | bgt (a b : RegIdx) (off : BitVec 13)
  | ble (a b : RegIdx) (off : BitVec 13)
  | bgtu (a b : RegIdx) (off : BitVec 13)
  | bleu (a b : RegIdx) (off : BitVec 13)
  | j (off : BitVec 21)
  | jal (off : BitVec 21)
  | jr (rs : RegIdx)
  | jalr (rs : RegIdx)
  | ret
  | call (delta : Word)
  | tail (delta : Word)
  | fence
  | csrr (rd : RegIdx) (csr : CsrAddr)
  | csrw (csr : CsrAddr) (rs : RegIdx)
  | csrs (csr : CsrAddr) (rs : RegIdx)
  | csrc (csr : CsrAddr) (rs : RegIdx)
  | csrwi (csr : CsrAddr) (u : BitVec 5)
  | csrsi (csr : CsrAddr) (u : BitVec 5)
  | csrci (csr : CsrAddr) (u : BitVec 5)
  | rdcycle (rd : RegIdx)
  | rdcycleh (rd : RegIdx)
  deriving DecidableEq, Repr

/-- `li` (R181): one ADDI for a 12-bit value; else LUI, and ADDI unless the low 12 bits are 0. -/
def expandLi (rd : RegIdx) (imm : Word) : List Instr :=
  if immI (lo12 imm) = imm then [.addi rd 0#5 (lo12 imm)]
  else if lo12 imm = 0#12 then [.lui rd (hi20 imm)]
  else [.lui rd (hi20 imm), .addi rd rd (lo12 imm)]

/-- The expansions of R181 and R182; `call` and `tail` in their general, PC-relative form. -/
def Pseudo.expand : Pseudo → List Instr
  | .nop => [.addi 0#5 0#5 0#12]
  | .li rd imm => expandLi rd imm
  | .la rd delta => [.auipc rd (hi20 delta), .addi rd rd (lo12 delta)]
  | .mv rd rs => [.addi rd rs 0#12]
  | .not rd rs => [.xori rd rs 0xFFF#12]
  | .neg rd rs => [.sub rd 0#5 rs]
  | .seqz rd rs => [.sltiu rd rs 1#12]
  | .snez rd rs => [.sltu rd 0#5 rs]
  | .sltz rd rs => [.slt rd rs 0#5]
  | .sgtz rd rs => [.slt rd 0#5 rs]
  | .beqz rs off => [.beq rs 0#5 off]
  | .bnez rs off => [.bne rs 0#5 off]
  | .blez rs off => [.bge 0#5 rs off]
  | .bgez rs off => [.bge rs 0#5 off]
  | .bltz rs off => [.blt rs 0#5 off]
  | .bgtz rs off => [.blt 0#5 rs off]
  | .bgt a b off => [.blt b a off]
  | .ble a b off => [.bge b a off]
  | .bgtu a b off => [.bltu b a off]
  | .bleu a b off => [.bgeu b a off]
  | .j off => [.jal 0#5 off]
  | .jal off => [.jal 1#5 off]
  | .jr rs => [.jalr 0#5 rs 0#12]
  | .jalr rs => [.jalr 1#5 rs 0#12]
  | .ret => [.jalr 0#5 1#5 0#12]
  | .call delta => [.auipc 1#5 (hi20 delta), .jalr 1#5 1#5 (lo12 delta)]
  | .tail delta => [.auipc 6#5 (hi20 delta), .jalr 0#5 6#5 (lo12 delta)]
  | .fence => [.fence 0#5 0#5 0x0#4 0xF#4 0xF#4]
  | .csrr rd csr => [.csrrs rd csr 0#5]
  | .csrw csr rs => [.csrrw 0#5 csr rs]
  | .csrs csr rs => [.csrrs 0#5 csr rs]
  | .csrc csr rs => [.csrrc 0#5 csr rs]
  | .csrwi csr u => [.csrrwi 0#5 csr u]
  | .csrsi csr u => [.csrrsi 0#5 csr u]
  | .csrci csr u => [.csrrci 0#5 csr u]
  | .rdcycle rd => [.csrrs rd 0xC00#12 0#5]
  | .rdcycleh rd => [.csrrs rd 0xC80#12 0#5]

end Sys2Proof.Machine
end

