-- ==== Sys2Proof/Safety.lean ====
section
/-! DEFINITION. What a sound state and a finished run are, in the terms the statements use. -/

namespace Sys2Proof.Machine

/-- The state invariant of both levels: both memories in canonical form; `mtvec[1:0]` reads 0 (R43); `mip` holds nothing but bits 11
and 7 (R48). -/
def StateInv (s : State) : Prop :=
  s.imem.wf ∧ s.dmem.wf ∧ s.mtvec &&& 0x3#32 = 0#32 ∧ s.mip &&& ~~~0x880#32 = 0#32

/-- The pipeline is empty: the state is an instruction-level state. -/
def State.drained (s : State) : Prop := s.pipe = {}

/-- An operand that ID has read is current: x0 reads 0, and a value that no older instruction in EX/MEM or MEM/WB is about to write
is the register's (R433, R437). -/
def State.operandCurrent (s : State) (r : RegIdx) (v : Word) : Prop :=
  (r = 0#5 → v = 0#32) ∧
  (r ≠ 0#5 → ¬(s.pipe.exMem.valid = true ∧ s.pipe.exMem.regWrite = true ∧ s.pipe.exMem.rd = r) →
    ¬(s.pipe.memWb.valid = true ∧ s.pipe.memWb.regWrite = true ∧ s.pipe.memWb.rd = r) → v = s.reg r)

/-- The pipeline invariant: what holds of the stage registers in every state that the cycle step reaches from reset. -/
structure PipeInv (s : State) : Prop where
  /-- The instruction level's front-end view is not in use. -/
  noFront : s.front = {}
  /-- IF/ID holds the word fetched at its address, and the PC is the address after it (R420, R421). -/
  ifId : s.pipe.ifId.valid = true →
    s.pipe.ifId.instr = s.fetchWord s.pipe.ifId.pc ∧ alignedPc s.pipe.ifId.pc = true ∧ s.pc = s.pipe.ifId.pc + 4#32
  /-- ID/EX holds the word fetched at its address and what decode gives for it (R415, R422). -/
  idEx : s.pipe.idEx.valid = true →
    s.pipe.idEx.instr = s.fetchWord s.pipe.idEx.pc ∧ alignedPc s.pipe.idEx.pc = true ∧
    decodeStage s.pipe.idEx.instr =
      { rs1 := s.pipe.idEx.rs1, rs2 := s.pipe.idEx.rs2, rd := s.pipe.idEx.rd, imm := s.pipe.idEx.imm,
        ctrl := s.pipe.idEx.ctrl }
  /-- The instruction after the one in EX is the one in ID, or the one at the PC. -/
  order : s.pipe.idEx.valid = true →
    (if s.pipe.ifId.valid then s.pipe.ifId.pc else s.pc) = s.pipe.idEx.pc + 4#32
  /-- The operands read in ID are current but for what forwarding replaces (R433 to R436). -/
  operands : s.pipe.idEx.valid = true →
    s.operandCurrent s.pipe.idEx.rs1 s.pipe.idEx.rs1Val ∧ s.operandCurrent s.pipe.idEx.rs2 s.pipe.idEx.rs2Val
  /-- "in no cycle does EX/MEM hold a valid load whose rd ≠ 0 matches the rs1 or rs2 of a valid ID/EX instruction" (R437). -/
  interlock : s.pipe.idEx.valid = true → s.pipe.exMem.valid = true → s.pipe.exMem.wbSel = .mem → s.pipe.exMem.rd ≠ 0#5 →
    s.pipe.exMem.rd ≠ s.pipe.idEx.rs1 ∧ s.pipe.exMem.rd ≠ s.pipe.idEx.rs2

/-- `END_OF_RUN` as the spec's typical choice has it (R409): the next instruction is at the address `halt`, which holds
`jal x0, 0`, and everything older has completed. -/
def State.haltedAt (s : State) (halt : Word) : Prop :=
  s.drained ∧ s.pc = halt ∧ s.fetchWord halt = 0x0000006F#32

/-- A run of the instruction level ends at `t`: `END_OF_RUN` is a parameter, a predicate on the state (R10, R409). -/
def RunEnds (endOfRun : State → Prop) (s t : State) : Prop :=
  ∃ k, Host.Core.run core k s = .next t ∧ endOfRun t

/-- A safe run of `k` steps: none of them faults or is refused. -/
def SafeRun (k : Nat) (s : State) : Prop := ∃ t, Host.Core.run core k s = .next t

/-! ### What an instruction changes, and what it leaves: the terms of the statements about instructions -/

/-- Every general register but `rd` reads as before. -/
def SameRegsBut (rd : RegIdx) (s t : State) : Prop := ∀ r, r ≠ rd → t.reg r = s.reg r

/-- Every CSR address reads as before: `mstatus` to `mtval`, `mip`, both halves of the counter, and the constants. -/
def SameCsrs (s t : State) : Prop := ∀ a, t.csrRead a = s.csrRead a

/-- Every byte of the data memory reads as before. -/
def SameData (s t : State) : Prop := ∀ a, t.dmem.read a = s.dmem.read a

/-- Every byte of the instruction memory reads as before. -/
def SameText (s t : State) : Prop := ∀ a, t.imem.read a = s.imem.read a

/-- The parameters, the pipeline registers, the front end's view and the inputs to come are as before. -/
def SameRest (s t : State) : Prop := t.cfg = s.cfg ∧ t.pipe = s.pipe ∧ t.front = s.front ∧ t.inputs = s.inputs

/-- The instruction completes: the next instruction is at `next`, `rd` holds `v` (a write to x0 is discarded), and every other
register, every CSR, every byte of memory and the device counter are as before. -/
def WritesReg (i : Instr) (s : State) (next : Word) (rd : RegIdx) (v : Word) : Prop :=
  ∃ t, exec i s = .next t ∧ t.pc = next ∧ t.reg rd = (if rd = 0#5 then 0#32 else v) ∧ SameRegsBut rd s t ∧
    SameCsrs s t ∧ SameData s t ∧ SameText s t ∧ t.deviceReads = s.deviceReads ∧ SameRest s t

/-- The instruction completes and writes no register: only the PC moves, to `next`. -/
def OnlyJumps (i : Instr) (s : State) (next : Word) : Prop :=
  ∃ t, exec i s = .next t ∧ t.pc = next ∧ (∀ r, t.reg r = s.reg r) ∧ SameCsrs s t ∧ SameData s t ∧ SameText s t ∧
    t.deviceReads = s.deviceReads ∧ SameRest s t

/-- A load completes: as `WritesReg` with the PC at pc + 4, and one device read is counted if the address is a device's. -/
def Loads (i : Instr) (s : State) (ea : Word) (rd : RegIdx) (v : Word) : Prop :=
  ∃ t, exec i s = .next t ∧ t.pc = s.pc + 4#32 ∧ t.reg rd = (if rd = 0#5 then 0#32 else v) ∧ SameRegsBut rd s t ∧
    SameCsrs s t ∧ SameData s t ∧ SameText s t ∧
    t.deviceReads = (if s.target ea = .device then s.deviceReads + 1 else s.deviceReads) ∧ SameRest s t

/-- A store completes: no register and no CSR changes, and the data memory reads at every byte address `a` what `mem a` says. -/
def Stores (i : Instr) (s : State) (mem : Nat → Byte) : Prop :=
  ∃ t, exec i s = .next t ∧ t.pc = s.pc + 4#32 ∧ (∀ r, t.reg r = s.reg r) ∧ SameCsrs s t ∧
    (∀ a, t.dmem.read a = mem a) ∧ SameText s t ∧ t.deviceReads = s.deviceReads ∧ SameRest s t

/-- A CSR instruction completes: `rd` holds the CSR's old value; the CSR, if it is one of the seven writable ones, holds the new value,
`mtvec` without its low two bits (R53); every other CSR, every other register and every byte of memory is as before. -/
def ModifiesCsr (i : Instr) (s : State) (rd : RegIdx) (csr : CsrAddr) (new : Word) : Prop :=
  ∃ t, exec i s = .next t ∧ t.pc = s.pc + 4#32 ∧ t.reg rd = (if rd = 0#5 then 0#32 else s.csrRead csr) ∧
    SameRegsBut rd s t ∧
    (∀ a, t.csrRead a =
      if a = csr ∧ csr ∈ [0x300#12, 0x304#12, 0x305#12, 0x340#12, 0x341#12, 0x342#12, 0x343#12] then
        (if csr = 0x305#12 then new &&& 0xFFFFFFFC#32 else new)
      else s.csrRead a) ∧
    SameData s t ∧ SameText s t ∧ t.deviceReads = s.deviceReads ∧ SameRest s t

/-- `mstatus` after a trap entry, bit by bit (R41, R360): MIE 0, MPIE the old MIE, every other bit as it was. -/
def EntryStatus (old new : Word) : Prop :=
  new.getLsbD 3 = false ∧ new.getLsbD 7 = old.getLsbD 3 ∧ ∀ k, k ≠ 3 → k ≠ 7 → new.getLsbD k = old.getLsbD k

/-- `mstatus` after a trap return, bit by bit (R41, R370): MIE the old MPIE, MPIE 1, every other bit as it was. -/
def ReturnStatus (old new : Word) : Prop :=
  new.getLsbD 3 = old.getLsbD 7 ∧ new.getLsbD 7 = true ∧ ∀ k, k ≠ 3 → k ≠ 7 → new.getLsbD k = old.getLsbD k

/-- `u` is the state `t` with a trap entry added, the enables and the handler's address read from the snapshot `s`. -/
def EntersTrap (s t u : State) (cause epc : Word) : Prop :=
  u.pc = s.mtvec ∧ u.mepc = epc ∧ u.mcause = cause ∧ EntryStatus s.mstatus u.mstatus ∧
    (∀ a, a ≠ 0x300#12 → a ≠ 0x341#12 → a ≠ 0x342#12 → u.csrRead a = t.csrRead a) ∧
    (∀ r, u.reg r = t.reg r) ∧ SameData t u ∧ SameText t u ∧ u.deviceReads = t.deviceReads

/-! ### The instruction-level state when the next instruction is in EX, under quiet inputs -/

/-- The bubble cycles before the next instruction is in EX when every fetch is valid. -/
def State.bubbles (s : State) : Nat := if s.front.inEx then 0 else if s.front.inId then 1 else 2

/-- `s` after its bubble cycles under quiet inputs: only the clock and the front end have moved. -/
def State.atEx (s : State) : State :=
  if s.front.inEx then s
  else { s with mip := 0#32, mcycle64 := s.mcycle64 + BitVec.ofNat 64 s.bubbles, front := { inId := true, inEx := true } }

end Sys2Proof.Machine
end

