-- ==== Sys2Proof/Certificates/Slice0/Obligations.lean ====
section
/-! DEFINITION. The statements for the provers, one `Obligations.<Name>` each; OBLIGATIONS.json lists them with the rules they rest on.
The witnesses of their hypotheses are in Sys2Proof/Tests/Slice0.lean. -/

open Sys2Proof Sys2Proof.Machine

/-! ### Encoding -/

/-- Words written out in the spec's examples decode to the instructions they stand for: one per format and family. -/
def Obligations.SpecWordsDecode : Prop :=
  decodeWord 0x123452B7#32 = .ok (.lui 5#5 0x12345#20) ∧
  decodeWord 0x00001317#32 = .ok (.auipc 6#5 0x00001#20) ∧
  decodeWord 0xFFF00093#32 = .ok (.addi 1#5 0#5 0xFFF#12) ∧
  decodeWord 0x41C0D213#32 = .ok (.srai 4#5 1#5 28#5) ∧
  decodeWord 0x402081B3#32 = .ok (.sub 3#5 1#5 2#5) ∧
  decodeWord 0x010000EF#32 = .ok (.jal 1#5 16#21) ∧
  decodeWord 0x001282E7#32 = .ok (.jalr 5#5 5#5 1#12) ∧
  decodeWord 0xFE209EE3#32 = .ok (.bne 1#5 2#5 (-4)) ∧
  decodeWord 0x0030C283#32 = .ok (.lbu 5#5 1#5 3#12) ∧
  decodeWord 0xFE20AE23#32 = .ok (.sw 1#5 2#5 (-4)) ∧
  decodeWord 0x340312F3#32 = .ok (.csrrw 5#5 0x340#12 6#5) ∧
  decodeWord 0x30046073#32 = .ok (.csrrsi 0#5 0x300#12 8#5) ∧
  decodeWord 0x30200073#32 = .ok .mret ∧
  decodeWord 0x0FF0000F#32 = .ok (.fence 0#5 0#5 0#4 0xF#4 0xF#4)

/-- Decoding the encoding of any well-formed instruction, with anything after it, gives the instruction and the rest. -/
def Obligations.DecodeOfEncode : Prop :=
  ∀ (i : Instr) (rest : List Byte), i.wellFormed = true → decode (encode i ++ rest) = .ok (i, rest)

/-- Every recognised word is the encoding of the well-formed instruction it decodes to: no bit of it is dropped. -/
def Obligations.EncodeOfDecode : Prop :=
  ∀ (w : Word) (i : Instr), decodeWord w = .ok i → i.wellFormed = true ∧ encodeWord i = w

/-- A word is recognised exactly when it matches a row of the opcode table, and it matches at most one (R169, R170). Strict decoding
is the spec's own choice D17 (log 9), the codes are from general knowledge (log 20). -/
def Obligations.RecognisedByExactlyOneRow : Prop :=
  (∀ w : Word, (∃ i, decodeWord w = .ok i) ↔ ∃ r ∈ opcodeTable, rowMatches r w = true) ∧
  (∀ w : Word, ∀ r ∈ opcodeTable, ∀ q ∈ opcodeTable, rowMatches r w = true → rowMatches q w = true → r = q) ∧
  opcodeTable.length = 47

/-- A word that no row matches does nothing but advance the PC (R171, R331; the spec's own choice D16, log 9). -/
def Obligations.DefaultArmDoesNothing : Prop :=
  ∀ (w : Word) (s : State), (∀ i, decodeWord w ≠ .ok i) →
    ∃ t, execWord w s = .next t ∧ t.pc = s.pc + 4#32 ∧ (∀ r, t.reg r = s.reg r) ∧ SameCsrs s t ∧ SameData s t ∧
      SameText s t ∧ t.deviceReads = s.deviceReads ∧ SameRest s t

/-! ### Registers and CSRs -/

/-- The register file (R30): x0 reads 0 whatever is written, a write is read back, other registers are untouched, and a cycle
commits at most one write, which the registers show from the next cycle on. That the read in ID has the write of its own cycle
already is R436, the spec's own choice D29 (log 22). -/
def Obligations.RegisterFileReadAfterWrite : Prop :=
  (∀ (rf : Vector Word 31) (i j : RegIdx) (v : Word),
    regRead (regWrite rf i v) j = if j = 0#5 then 0#32 else if j = i then v else regRead rf j) ∧
  (∀ s t : State, s.curInputs.reset = false → s.cycle = .next t →
    (∃ i v, t.regs = regWrite s.regs i v) ∧ ∀ r, s.rfRead r = t.reg r)

/-- The write back of a cycle (R412): the MEM/WB entry's value, chosen by `wb_sel`, goes to its rd, when the entry is valid, writes a
register, and rd is not x0; else no register changes. -/
def Obligations.WriteBackCommitsSelectedValue : Prop :=
  ∀ s t : State, s.curInputs.reset = false → s.cycle = .next t →
    t.regs =
      if s.pipe.memWb.valid = true ∧ s.pipe.memWb.regWrite = true ∧ s.pipe.memWb.rd ≠ 0#5 then
        regWrite s.regs s.pipe.memWb.rd
          (match s.pipe.memWb.wbSel with
            | .alu => s.pipe.memWb.aluResult
            | .mem => s.pipe.memWb.memData
            | .pc4 => s.pipe.memWb.pc4
            | .csr => s.pipe.memWb.csrRdata)
      else s.regs

/-- The CSR read table (R51). That every address outside the implemented set reads 0 is R52, the spec's own choice D13 (log 19). -/
def Obligations.CsrReadTable : Prop :=
  ∀ s : State,
    s.csrRead 0x300#12 = s.mstatus ∧ s.csrRead 0x301#12 = s.cfg.misa ∧ s.csrRead 0x304#12 = s.mie ∧
    s.csrRead 0x305#12 = s.mtvec ∧ s.csrRead 0x340#12 = s.mscratch ∧ s.csrRead 0x341#12 = s.mepc ∧
    s.csrRead 0x342#12 = s.mcause ∧ s.csrRead 0x343#12 = s.mtval ∧ s.csrRead 0x344#12 = s.mip ∧
    s.csrRead 0xC00#12 = s.mcycle64.extractLsb' 0 32 ∧ s.csrRead 0xC80#12 = s.mcycle64.extractLsb' 32 32 ∧
    s.csrRead 0xF11#12 = 0#32 ∧ s.csrRead 0xF12#12 = 0#32 ∧ s.csrRead 0xF13#12 = 0#32 ∧ s.csrRead 0xF14#12 = 0#32 ∧
    ∀ a : CsrAddr,
      a ∉ [0x300#12, 0x301#12, 0x304#12, 0x305#12, 0x340#12, 0x341#12, 0x342#12, 0x343#12, 0x344#12, 0xC00#12, 0xC80#12] →
      s.csrRead a = 0#32

/-- What a CSR-instruction write does to each address (R52 to R54): the seven writable CSRs take the value, `mtvec` without its low
two bits; at every other address, read-only or unimplemented, nothing changes at all. That all bits of `mstatus`, `mie`, `mscratch`,
`mepc`, `mcause` and `mtval` are stored is the spec's own choice (D10, D15, log 18), and so is that an unimplemented address ignores
writes (D13, log 19). -/
def Obligations.CsrWriteByAccessClass : Prop :=
  ∀ (s : State) (v : Word),
    s.csrWrite 0x300#12 v = { s with mstatus := v } ∧ s.csrWrite 0x304#12 v = { s with mie := v } ∧
    s.csrWrite 0x305#12 v = { s with mtvec := v &&& 0xFFFFFFFC#32 } ∧ s.csrWrite 0x340#12 v = { s with mscratch := v } ∧
    s.csrWrite 0x341#12 v = { s with mepc := v } ∧ s.csrWrite 0x342#12 v = { s with mcause := v } ∧
    s.csrWrite 0x343#12 v = { s with mtval := v } ∧
    ∀ a : CsrAddr, a ∉ [0x300#12, 0x304#12, 0x305#12, 0x340#12, 0x341#12, 0x342#12, 0x343#12] → s.csrWrite a v = s

/-- The arbitration of every cycle (R55, R48, R49): a trap entry or return decides the registers it writes; every other CSR takes
the CSR instruction's write if there is one, else keeps its value; `mip` follows the lines, the counter counts. Arbitration register
by register, the bits of `mip` and what the counter counts are the spec's own choices (D32, log 25; D8, log 17; D36, log 26). -/
def Obligations.CsrArbitrationEveryCycle : Prop :=
  ∀ s t : State, s.curInputs.reset = false → s.cycle = .next t →
    (∀ r : CsrReg, t.csrReg r =
      match s.trapDecision s.curInputs, r with
      | .entry _ _, .mstatus => mstatusOnEntry s.mstatus
      | .entry _ epc, .mepc => epc
      | .entry cause _, .mcause => cause
      | .ret, .mstatus => mstatusOnReturn s.mstatus
      | _, r => (cpuWrite s.exCpuWrite r).getD (s.csrReg r)) ∧
    (∀ k, t.mip.getLsbD k = (decide (k = 11) && s.curInputs.irqExt || decide (k = 7) && s.curInputs.irqTimer)) ∧
    t.mcycle64 = s.mcycle64 + 1#64

/-! ### Reset -/

/-- A cycle or a step with reset asserted gives the reset state whatever the other inputs and the rest of the state are (R403); what
that state is (R400): the zero of x1 to x31 is the model's choice (log 5), the CSR zeros are the spec's (D11). -/
def Obligations.ResetGivesTheResetState : Prop :=
  (∀ s : State, s.curInputs.reset = true → s.cycle = .next s.afterReset ∧ step s = .next s.afterReset) ∧
  (∀ s : State,
    s.afterReset.pc = s.cfg.resetPc ∧ alignedPc s.afterReset.pc = true ∧ (∀ r, s.afterReset.reg r = 0#32) ∧
    s.afterReset.pipe = {} ∧
    (∀ a, s.afterReset.csrRead a = if a = 0x301#12 then s.cfg.misa else 0#32) ∧
    s.afterReset.mcycle64 = 0#64 ∧ s.afterReset.imem = s.imem ∧ s.afterReset.dmem = s.dmem ∧
    s.afterReset.cfg = s.cfg ∧ s.afterReset.deviceReads = s.deviceReads ∧ s.afterReset.inputs = s.inputs.tail)

/-- The state invariant holds at reset, and after a reset of any state that meets it. The reset values of the CSRs are the spec's
own choice (D11, log 7). -/
def Obligations.StateInvAtReset : Prop :=
  StateInv State.reset ∧ ∀ s : State, StateInv s → StateInv s.afterReset

/-- Every step of the instruction level keeps the state invariant. -/
def Obligations.StepKeepsStateInv : Prop := ∀ s t : State, StateInv s → step s = .next t → StateInv t

/-- Every clock cycle keeps the state invariant. -/
def Obligations.CycleKeepsStateInv : Prop := ∀ s t : State, StateInv s → s.cycle = .next t → StateInv t

/-- Start-up timing: `csrrs x5, cycle, x0` at `RESET_PC` reads 2 (R405), for every platform and every memory that holds it there,
with no input scheduled (quiet inputs, log 16). The count rests on the spec's own pipeline timing and counter (D1, log 22; D36, log
26). -/
def Obligations.CycleCounterReadsTwoAtResetPc : Prop :=
  ∀ (cfg : Config) (imem dmem : Memory) (n : Nat),
    (State.resetWith cfg imem dmem [] n).fetchWord cfg.resetPc = 0xC00022F3#32 →
    ∃ t, step (State.resetWith cfg imem dmem [] n) = .next t ∧ t.reg 5#5 = 2#32 ∧ t.pc = cfg.resetPc + 4#32

/-! ### Integer instructions: result, completion and frame -/

/-- LUI and AUIPC. -/
def Obligations.UpperImmediateResults : Prop :=
  ∀ (s : State) (rd : RegIdx) (imm20 : BitVec 20),
    (decodeWord (imm20 ++ rd ++ 0b0110111#7) = .ok (.lui rd imm20) ∧ rs1Index (imm20 ++ rd ++ 0b0110111#7) = 0#5 ∧
      WritesReg (.lui rd imm20) s (s.pc + 4#32) rd (imm20 ++ 0#12)) ∧
    (decodeWord (imm20 ++ rd ++ 0b0010111#7) = .ok (.auipc rd imm20) ∧
      WritesReg (.auipc rd imm20) s (s.pc + 4#32) rd (s.pc + (imm20 ++ 0#12)))

/-- ADDI, XORI, ORI and ANDI. -/
def Obligations.ImmediateArithmeticResults : Prop :=
  ∀ (s : State) (rd rs1 : RegIdx) (imm : BitVec 12),
    (decodeWord (imm ++ rs1 ++ 0b000#3 ++ rd ++ 0b0010011#7) = .ok (.addi rd rs1 imm) ∧
      WritesReg (.addi rd rs1 imm) s (s.pc + 4#32) rd (s.reg rs1 + imm.signExtend 32)) ∧
    (decodeWord (imm ++ rs1 ++ 0b100#3 ++ rd ++ 0b0010011#7) = .ok (.xori rd rs1 imm) ∧
      WritesReg (.xori rd rs1 imm) s (s.pc + 4#32) rd (s.reg rs1 ^^^ imm.signExtend 32)) ∧
    (decodeWord (imm ++ rs1 ++ 0b110#3 ++ rd ++ 0b0010011#7) = .ok (.ori rd rs1 imm) ∧
      WritesReg (.ori rd rs1 imm) s (s.pc + 4#32) rd (s.reg rs1 ||| imm.signExtend 32)) ∧
    (decodeWord (imm ++ rs1 ++ 0b111#3 ++ rd ++ 0b0010011#7) = .ok (.andi rd rs1 imm) ∧
      WritesReg (.andi rd rs1 imm) s (s.pc + 4#32) rd (s.reg rs1 &&& imm.signExtend 32))

/-- SLTI and SLTIU: the immediate is sign-extended for both; the comparison is signed for the one, unsigned for the other. -/
def Obligations.SetLessThanImmediateResults : Prop :=
  ∀ (s : State) (rd rs1 : RegIdx) (imm : BitVec 12),
    (decodeWord (imm ++ rs1 ++ 0b010#3 ++ rd ++ 0b0010011#7) = .ok (.slti rd rs1 imm) ∧
      WritesReg (.slti rd rs1 imm) s (s.pc + 4#32) rd
        (if (s.reg rs1).toInt < (imm.signExtend 32).toInt then 1#32 else 0#32)) ∧
    (decodeWord (imm ++ rs1 ++ 0b011#3 ++ rd ++ 0b0010011#7) = .ok (.sltiu rd rs1 imm) ∧
      WritesReg (.sltiu rd rs1 imm) s (s.pc + 4#32) rd
        (if (s.reg rs1).toNat < (imm.signExtend 32).toNat then 1#32 else 0#32))

/-- SLLI, SRLI and SRAI; a word with another funct7 is none of them. -/
def Obligations.ImmediateShiftResults : Prop :=
  (∀ (s : State) (rd rs1 : RegIdx) (shamt : BitVec 5),
    (decodeWord (0b0000000#7 ++ shamt ++ rs1 ++ 0b001#3 ++ rd ++ 0b0010011#7) = .ok (.slli rd rs1 shamt) ∧
      WritesReg (.slli rd rs1 shamt) s (s.pc + 4#32) rd (s.reg rs1 <<< shamt.toNat)) ∧
    (decodeWord (0b0000000#7 ++ shamt ++ rs1 ++ 0b101#3 ++ rd ++ 0b0010011#7) = .ok (.srli rd rs1 shamt) ∧
      WritesReg (.srli rd rs1 shamt) s (s.pc + 4#32) rd (s.reg rs1 >>> shamt.toNat)) ∧
    (decodeWord (0b0100000#7 ++ shamt ++ rs1 ++ 0b101#3 ++ rd ++ 0b0010011#7) = .ok (.srai rd rs1 shamt) ∧
      WritesReg (.srai rd rs1 shamt) s (s.pc + 4#32) rd ((s.reg rs1).sshiftRight shamt.toNat))) ∧
  (∀ w : Word, opcodeOf w = 0b0010011#7 →
    (funct3Of w = 0b001#3 ∧ funct7Of w ≠ 0b0000000#7 ∨
      funct3Of w = 0b101#3 ∧ funct7Of w ≠ 0b0000000#7 ∧ funct7Of w ≠ 0b0100000#7) →
    ∀ i, decodeWord w ≠ .ok i)

/-- ADD and SUB, modulo 2^32. -/
def Obligations.AddSubResults : Prop :=
  ∀ (s : State) (rd rs1 rs2 : RegIdx),
    (decodeWord (0b0000000#7 ++ rs2 ++ rs1 ++ 0b000#3 ++ rd ++ 0b0110011#7) = .ok (.add rd rs1 rs2) ∧
      WritesReg (.add rd rs1 rs2) s (s.pc + 4#32) rd (s.reg rs1 + s.reg rs2)) ∧
    (decodeWord (0b0100000#7 ++ rs2 ++ rs1 ++ 0b000#3 ++ rd ++ 0b0110011#7) = .ok (.sub rd rs1 rs2) ∧
      WritesReg (.sub rd rs1 rs2) s (s.pc + 4#32) rd (s.reg rs1 - s.reg rs2))

/-- XOR, OR and AND. -/
def Obligations.BitwiseResults : Prop :=
  ∀ (s : State) (rd rs1 rs2 : RegIdx),
    (decodeWord (0b0000000#7 ++ rs2 ++ rs1 ++ 0b100#3 ++ rd ++ 0b0110011#7) = .ok (.xor rd rs1 rs2) ∧
      WritesReg (.xor rd rs1 rs2) s (s.pc + 4#32) rd (s.reg rs1 ^^^ s.reg rs2)) ∧
    (decodeWord (0b0000000#7 ++ rs2 ++ rs1 ++ 0b110#3 ++ rd ++ 0b0110011#7) = .ok (.or rd rs1 rs2) ∧
      WritesReg (.or rd rs1 rs2) s (s.pc + 4#32) rd (s.reg rs1 ||| s.reg rs2)) ∧
    (decodeWord (0b0000000#7 ++ rs2 ++ rs1 ++ 0b111#3 ++ rd ++ 0b0110011#7) = .ok (.and rd rs1 rs2) ∧
      WritesReg (.and rd rs1 rs2) s (s.pc + 4#32) rd (s.reg rs1 &&& s.reg rs2))

/-- SLT and SLTU. -/
def Obligations.SetLessThanResults : Prop :=
  ∀ (s : State) (rd rs1 rs2 : RegIdx),
    (decodeWord (0b0000000#7 ++ rs2 ++ rs1 ++ 0b010#3 ++ rd ++ 0b0110011#7) = .ok (.slt rd rs1 rs2) ∧
      WritesReg (.slt rd rs1 rs2) s (s.pc + 4#32) rd (if (s.reg rs1).toInt < (s.reg rs2).toInt then 1#32 else 0#32)) ∧
    (decodeWord (0b0000000#7 ++ rs2 ++ rs1 ++ 0b011#3 ++ rd ++ 0b0110011#7) = .ok (.sltu rd rs1 rs2) ∧
      WritesReg (.sltu rd rs1 rs2) s (s.pc + 4#32) rd (if (s.reg rs1).toNat < (s.reg rs2).toNat then 1#32 else 0#32))

/-- SLL, SRL and SRA: only the low five bits of `x[rs2]` are the amount. -/
def Obligations.RegisterShiftResults : Prop :=
  ∀ (s : State) (rd rs1 rs2 : RegIdx),
    (decodeWord (0b0000000#7 ++ rs2 ++ rs1 ++ 0b001#3 ++ rd ++ 0b0110011#7) = .ok (.sll rd rs1 rs2) ∧
      WritesReg (.sll rd rs1 rs2) s (s.pc + 4#32) rd (s.reg rs1 <<< ((s.reg rs2).toNat % 32))) ∧
    (decodeWord (0b0000000#7 ++ rs2 ++ rs1 ++ 0b101#3 ++ rd ++ 0b0110011#7) = .ok (.srl rd rs1 rs2) ∧
      WritesReg (.srl rd rs1 rs2) s (s.pc + 4#32) rd (s.reg rs1 >>> ((s.reg rs2).toNat % 32))) ∧
    (decodeWord (0b0100000#7 ++ rs2 ++ rs1 ++ 0b101#3 ++ rd ++ 0b0110011#7) = .ok (.sra rd rs1 rs2) ∧
      WritesReg (.sra rd rs1 rs2) s (s.pc + 4#32) rd ((s.reg rs1).sshiftRight ((s.reg rs2).toNat % 32)))

/-! ### Control transfer -/

/-- JAL: the link is pc + 4, the target pc + immJ. -/
def Obligations.JalLinksAndJumps : Prop :=
  ∀ (s : State) (rd : RegIdx) (off : BitVec 21),
    (off.getLsbD 0 = false →
      decodeWord (off.extractLsb' 20 1 ++ off.extractLsb' 1 10 ++ off.extractLsb' 11 1 ++ off.extractLsb' 12 8 ++ rd ++
        0b1101111#7) = .ok (.jal rd off)) ∧
    WritesReg (.jal rd off) s (s.pc + off.signExtend 32) rd (s.pc + 4#32)

/-- JALR: the target is the old `x[rs1]` plus immI with bit 0 cleared; other funct3 values are no JALR. -/
def Obligations.JalrLinksAndJumps : Prop :=
  (∀ (s : State) (rd rs1 : RegIdx) (imm : BitVec 12),
    decodeWord (imm ++ rs1 ++ 0b000#3 ++ rd ++ 0b1100111#7) = .ok (.jalr rd rs1 imm) ∧
    WritesReg (.jalr rd rs1 imm) s ((s.reg rs1 + imm.signExtend 32) &&& 0xFFFFFFFE#32) rd (s.pc + 4#32)) ∧
  (∀ w : Word, opcodeOf w = 0b1100111#7 → funct3Of w ≠ 0b000#3 → ∀ i, decodeWord w ≠ .ok i)

/-- The six branches: taken to pc + immB when the condition holds, else pc + 4; nothing else changes. -/
def Obligations.BranchesJumpOnTheirCondition : Prop :=
  ∀ (s : State) (rs1 rs2 : RegIdx) (off : BitVec 13),
    (off.getLsbD 0 = false → ∀ f3 : BitVec 3,
      decodeWord (off.extractLsb' 12 1 ++ off.extractLsb' 5 6 ++ rs2 ++ rs1 ++ f3 ++ off.extractLsb' 1 4 ++
        off.extractLsb' 11 1 ++ 0b1100011#7) =
        match f3 with
        | 0b000#3 => .ok (.beq rs1 rs2 off)
        | 0b001#3 => .ok (.bne rs1 rs2 off)
        | 0b100#3 => .ok (.blt rs1 rs2 off)
        | 0b101#3 => .ok (.bge rs1 rs2 off)
        | 0b110#3 => .ok (.bltu rs1 rs2 off)
        | 0b111#3 => .ok (.bgeu rs1 rs2 off)
        | f3 => .error (.reservedFunct3 0b1100011#7 f3)) ∧
    OnlyJumps (.beq rs1 rs2 off) s (if s.reg rs1 = s.reg rs2 then s.pc + off.signExtend 32 else s.pc + 4#32) ∧
    OnlyJumps (.bne rs1 rs2 off) s (if s.reg rs1 ≠ s.reg rs2 then s.pc + off.signExtend 32 else s.pc + 4#32) ∧
    OnlyJumps (.blt rs1 rs2 off) s
      (if (s.reg rs1).toInt < (s.reg rs2).toInt then s.pc + off.signExtend 32 else s.pc + 4#32) ∧
    OnlyJumps (.bge rs1 rs2 off) s
      (if (s.reg rs1).toInt ≥ (s.reg rs2).toInt then s.pc + off.signExtend 32 else s.pc + 4#32) ∧
    OnlyJumps (.bltu rs1 rs2 off) s
      (if (s.reg rs1).toNat < (s.reg rs2).toNat then s.pc + off.signExtend 32 else s.pc + 4#32) ∧
    OnlyJumps (.bgeu rs1 rs2 off) s
      (if (s.reg rs1).toNat ≥ (s.reg rs2).toNat then s.pc + off.signExtend 32 else s.pc + 4#32)

/-! ### Loads and stores -/

/-- LB and LBU: the byte lane of the word the platform presents for the effective address, extended. -/
def Obligations.ByteLoadResults : Prop :=
  ∀ (s : State) (rd rs1 : RegIdx) (imm : BitVec 12) (ea : Word), ea = s.reg rs1 + imm.signExtend 32 →
    (decodeWord (imm ++ rs1 ++ 0b000#3 ++ rd ++ 0b0000011#7) = .ok (.lb rd rs1 imm) ∧
      Loads (.lb rd rs1 imm) s ea rd (((s.busRead ea).extractLsb' (8 * (ea.toNat % 4)) 8).signExtend 32)) ∧
    (decodeWord (imm ++ rs1 ++ 0b100#3 ++ rd ++ 0b0000011#7) = .ok (.lbu rd rs1 imm) ∧
      Loads (.lbu rd rs1 imm) s ea rd (((s.busRead ea).extractLsb' (8 * (ea.toNat % 4)) 8).zeroExtend 32))

/-- LH, LHU and LW at every address, misaligned ones included (the lane rule R108, R112 is the spec's choice D23, log 10). -/
def Obligations.HalfAndWordLoadResults : Prop :=
  ∀ (s : State) (rd rs1 : RegIdx) (imm : BitVec 12) (ea : Word), ea = s.reg rs1 + imm.signExtend 32 →
    (decodeWord (imm ++ rs1 ++ 0b001#3 ++ rd ++ 0b0000011#7) = .ok (.lh rd rs1 imm) ∧
      Loads (.lh rd rs1 imm) s ea rd
        ((if ea.getLsbD 1 then (s.busRead ea).extractLsb' 16 16 else (s.busRead ea).extractLsb' 0 16).signExtend 32)) ∧
    (decodeWord (imm ++ rs1 ++ 0b101#3 ++ rd ++ 0b0000011#7) = .ok (.lhu rd rs1 imm) ∧
      Loads (.lhu rd rs1 imm) s ea rd
        ((if ea.getLsbD 1 then (s.busRead ea).extractLsb' 16 16 else (s.busRead ea).extractLsb' 0 16).zeroExtend 32)) ∧
    (decodeWord (imm ++ rs1 ++ 0b010#3 ++ rd ++ 0b0000011#7) = .ok (.lw rd rs1 imm) ∧
      Loads (.lw rd rs1 imm) s ea rd (s.busRead ea))

/-- Aligned loads from plain memory read the bytes at the effective address, the lowest address least significant (R105, R107). -/
def Obligations.AlignedLoadsReadLittleEndianBytes : Prop :=
  ∀ (s : State) (rd rs1 : RegIdx) (imm : BitVec 12) (ea : Word), ea = s.reg rs1 + imm.signExtend 32 →
    s.target ea = .ram (wordAddr ea) →
    Loads (.lbu rd rs1 imm) s ea rd ((s.dmem.read ea.toNat).zeroExtend 32) ∧
    (ea.toNat % 2 = 0 → Loads (.lhu rd rs1 imm) s ea rd
      ((s.dmem.read (ea.toNat + 1) ++ s.dmem.read ea.toNat).zeroExtend 32)) ∧
    (ea.toNat % 4 = 0 → Loads (.lw rd rs1 imm) s ea rd
      (s.dmem.read (ea.toNat + 3) ++ s.dmem.read (ea.toNat + 2) ++ s.dmem.read (ea.toNat + 1) ++ s.dmem.read ea.toNat))

/-- SB: the low byte of `x[rs2]` goes to the one byte of main memory that the effective address reaches, by the strobe and data of its
lane; every other byte is as before, and an address that reaches no main memory changes none of it. -/
def Obligations.ByteStoreResult : Prop :=
  ∀ (s : State) (rs1 rs2 : RegIdx) (imm : BitVec 12), s.dmem.wf → s.hitsText (s.ea rs1 imm) = false →
    s.ea rs1 imm = s.reg rs1 + imm.signExtend 32 ∧
    decodeWord (imm.extractLsb' 5 7 ++ rs2 ++ rs1 ++ 0b000#3 ++ imm.extractLsb' 0 5 ++ 0b0100011#7) = .ok (.sb rs1 rs2 imm) ∧
    storeStrobe 0b000#3 (laneOf (s.ea rs1 imm)) = 0b0001#4 <<< ((s.ea rs1 imm).toNat % 4) ∧
    storeData 0b000#3 (laneOf (s.ea rs1 imm)) (s.reg rs2) =
      ((s.reg rs2).extractLsb' 0 8).zeroExtend 32 <<< (8 * ((s.ea rs1 imm).toNat % 4)) ∧
    Stores (.sb rs1 rs2 imm) s (fun a =>
      match s.target (s.ea rs1 imm) with
      | .ram w => if a = laneAddr w ((s.ea rs1 imm).toNat % 4) then (s.reg rs2).extractLsb' 0 8 else s.dmem.read a
      | _ => s.dmem.read a)

/-- SH and SW at every address, misaligned ones included (the lane rule is the spec's choice D23, log 10): the halfword lane chosen by
address bit 1, or the whole aligned word; every other byte is as before. -/
def Obligations.HalfAndWordStoreResults : Prop :=
  ∀ (s : State) (rs1 rs2 : RegIdx) (imm : BitVec 12), s.dmem.wf → s.hitsText (s.ea rs1 imm) = false →
    (decodeWord (imm.extractLsb' 5 7 ++ rs2 ++ rs1 ++ 0b001#3 ++ imm.extractLsb' 0 5 ++ 0b0100011#7) = .ok (.sh rs1 rs2 imm) ∧
      Stores (.sh rs1 rs2 imm) s (fun a =>
        match s.target (s.ea rs1 imm) with
        | .ram w =>
          if a = laneAddr w ((s.ea rs1 imm).toNat % 4 / 2 * 2) then (s.reg rs2).extractLsb' 0 8
          else if a = laneAddr w ((s.ea rs1 imm).toNat % 4 / 2 * 2 + 1) then (s.reg rs2).extractLsb' 8 8
          else s.dmem.read a
        | _ => s.dmem.read a)) ∧
    (decodeWord (imm.extractLsb' 5 7 ++ rs2 ++ rs1 ++ 0b010#3 ++ imm.extractLsb' 0 5 ++ 0b0100011#7) = .ok (.sw rs1 rs2 imm) ∧
      Stores (.sw rs1 rs2 imm) s (fun a =>
        match s.target (s.ea rs1 imm) with
        | .ram w =>
          if a = laneAddr w 0 then (s.reg rs2).extractLsb' 0 8
          else if a = laneAddr w 1 then (s.reg rs2).extractLsb' 8 8
          else if a = laneAddr w 2 then (s.reg rs2).extractLsb' 16 8
          else if a = laneAddr w 3 then (s.reg rs2).extractLsb' 24 8
          else s.dmem.read a
        | _ => s.dmem.read a))

/-- A store into program text is refused by name: the model's reading of R123 (log 12). -/
def Obligations.StoreIntoProgramTextIsRefused : Prop :=
  ∀ (s : State) (rs1 rs2 : RegIdx) (imm : BitVec 12), s.hitsText (s.ea rs1 imm) = true →
    exec (.sb rs1 rs2 imm) s = .refused .storeIntoProgramText ∧
    exec (.sh rs1 rs2 imm) s = .refused .storeIntoProgramText ∧
    exec (.sw rs1 rs2 imm) s = .refused .storeIntoProgramText

/-- The round trip (R290) on plain memory: a stored word, halfword or byte, loaded from the same aligned address, comes back, with the
extension of the load, whatever register holds the address for the load. -/
def Obligations.StoreThenLoadReturnsTheValue : Prop :=
  ∀ (s t : State) (rs1 rs2 rd rb : RegIdx) (imm off : BitVec 12) (ea : Word), s.dmem.wf → ea = s.ea rs1 imm →
    s.target ea = .ram (wordAddr ea) → t.ea rb off = ea →
    (ea.toNat % 4 = 0 → exec (.sw rs1 rs2 imm) s = .next t → Loads (.lw rd rb off) t ea rd (s.reg rs2)) ∧
    (ea.toNat % 2 = 0 → exec (.sh rs1 rs2 imm) s = .next t →
      Loads (.lh rd rb off) t ea rd (((s.reg rs2).extractLsb' 0 16).signExtend 32) ∧
      Loads (.lhu rd rb off) t ea rd (((s.reg rs2).extractLsb' 0 16).zeroExtend 32)) ∧
    (exec (.sb rs1 rs2 imm) s = .next t →
      Loads (.lb rd rb off) t ea rd (((s.reg rs2).extractLsb' 0 8).signExtend 32) ∧
      Loads (.lbu rd rb off) t ea rd (((s.reg rs2).extractLsb' 0 8).zeroExtend 32))

/-! ### CSR, system and fence instructions -/

/-- The six CSR instructions: rd takes the old value, the CSR the written, set or cleared one, at any CSR address. That all bits of
the writable CSRs but `mtvec[1:0]` are stored is the spec's own choice (D10, D15, log 18), and so is what an unimplemented address
does (R52, D13, log 19) and the cycle of the read and the write (D31, D33, log 25). -/
def Obligations.CsrInstructionResults : Prop :=
  ∀ (s : State) (rd rs1 : RegIdx) (csr : CsrAddr) (u : BitVec 5),
    (decodeWord (csr ++ rs1 ++ 0b001#3 ++ rd ++ 0b1110011#7) = .ok (.csrrw rd csr rs1) ∧
      ModifiesCsr (.csrrw rd csr rs1) s rd csr (s.reg rs1)) ∧
    (decodeWord (csr ++ rs1 ++ 0b010#3 ++ rd ++ 0b1110011#7) = .ok (.csrrs rd csr rs1) ∧
      ModifiesCsr (.csrrs rd csr rs1) s rd csr (s.csrRead csr ||| s.reg rs1)) ∧
    (decodeWord (csr ++ rs1 ++ 0b011#3 ++ rd ++ 0b1110011#7) = .ok (.csrrc rd csr rs1) ∧
      ModifiesCsr (.csrrc rd csr rs1) s rd csr (s.csrRead csr &&& ~~~(s.reg rs1))) ∧
    (decodeWord (csr ++ u ++ 0b101#3 ++ rd ++ 0b1110011#7) = .ok (.csrrwi rd csr u) ∧
      ModifiesCsr (.csrrwi rd csr u) s rd csr (u.zeroExtend 32)) ∧
    (decodeWord (csr ++ u ++ 0b110#3 ++ rd ++ 0b1110011#7) = .ok (.csrrsi rd csr u) ∧
      ModifiesCsr (.csrrsi rd csr u) s rd csr (s.csrRead csr ||| u.zeroExtend 32)) ∧
    (decodeWord (csr ++ u ++ 0b111#3 ++ rd ++ 0b1110011#7) = .ok (.csrrci rd csr u) ∧
      ModifiesCsr (.csrrci rd csr u) s rd csr (s.csrRead csr &&& ~~~(u.zeroExtend 32)))

/-- A set or clear with a zero operand changes no CSR (R311), in every state whose `mtvec[1:0]` is 0 as R43 has it. That such an
instruction writes the old value back is the spec's own choice D33 (log 25). -/
def Obligations.ZeroOperandSetClearKeepsCsrs : Prop :=
  ∀ (s t : State) (rd rs1 : RegIdx) (csr : CsrAddr), s.mtvec &&& 0x3#32 = 0#32 → s.reg rs1 = 0#32 →
    (exec (.csrrs rd csr rs1) s = .next t ∨ exec (.csrrc rd csr rs1) s = .next t ∨
      exec (.csrrsi rd csr 0#5) s = .next t ∨ exec (.csrrci rd csr 0#5) s = .next t) →
    SameCsrs s t

/-- ECALL and EBREAK complete by taking their trap: `mepc` is their own address, the spec's own choice D5 (log 17), `mcause` 11 or
3, and only `mstatus`, `mepc`, `mcause` and the PC change. -/
def Obligations.EcallEbreakTakeTheirTrap : Prop :=
  ∀ s : State,
    (∃ u, exec .ecall s = .next u ∧ EntersTrap s s u 0x0000000B#32 s.pc ∧ SameRest s u) ∧
    (∃ u, exec .ebreak s = .next u ∧ EntersTrap s s u 0x00000003#32 s.pc ∧ SameRest s u)

/-- MRET: MIE takes MPIE, MPIE becomes 1, the PC is `mepc`, and nothing else changes (R322, R370, R371). That the other bits of
`mstatus` stay is the spec's own choice D35 (log 18). -/
def Obligations.MretReturns : Prop :=
  ∀ s : State, ∃ u, exec .mret s = .next u ∧ u.pc = s.mepc ∧ ReturnStatus s.mstatus u.mstatus ∧
    (∀ a, a ≠ 0x300#12 → u.csrRead a = s.csrRead a) ∧ (∀ r, u.reg r = s.reg r) ∧ SameData s u ∧ SameText s u ∧
    u.deviceReads = s.deviceReads ∧ SameRest s u

/-- FENCE with any fields does nothing but advance the PC (R330), the spec's own choice D18 (log 28). -/
def Obligations.FenceOnlyAdvances : Prop :=
  ∀ (s : State) (rd rs1 : RegIdx) (fm pred succ : BitVec 4),
    decodeWord (fm ++ pred ++ succ ++ rs1 ++ 0b000#3 ++ rd ++ 0b0001111#7) = .ok (.fence rd rs1 fm pred succ) ∧
    OnlyJumps (.fence rd rs1 fm pred succ) s (s.pc + 4#32)

/-! ### Traps and interrupts -/

/-- Trap entry in one cycle (R360): `mepc`, `mcause` and `mstatus` are written together, the next PC is `mtvec`, IF/ID and ID/EX are
cleared; after it MIE is 0 and MPIE the old MIE. The other four writable CSRs change only by the write of a CSR instruction in EX
(R55, R366), the spec's own choice D32 (log 25). -/
def Obligations.TrapEntryIsOneAtomicBundle : Prop :=
  ∀ (s t : State) (cause epc : Word), s.curInputs.reset = false → s.trapDecision s.curInputs = .entry cause epc →
    s.cycle = .next t →
    t.mepc = epc ∧ t.mcause = cause ∧
    t.mstatus = (s.mstatus &&& ~~~0x00000088#32) ||| ((s.mstatus.extractLsb' 3 1).zeroExtend 32 <<< 7) ∧
    EntryStatus s.mstatus t.mstatus ∧ t.pc = s.mtvec ∧ t.pipe.ifId = {} ∧ t.pipe.idEx = {} ∧
    ∀ r : CsrReg, r = .mie ∨ r = .mtvec ∨ r = .mscratch ∨ r = .mtval →
      t.csrReg r = (cpuWrite s.exCpuWrite r).getD (s.csrReg r)

/-- Trap return in one cycle (R370): `mstatus` is restored, the next PC is `mepc`, IF/ID and ID/EX are cleared. That the other bits
of `mstatus` stay is the spec's own choice D35 (log 18), and that two entries are cleared D30 (log 22). -/
def Obligations.TrapReturnIsOneAtomicBundle : Prop :=
  ∀ s t : State, s.curInputs.reset = false → s.trapDecision s.curInputs = .ret → s.cycle = .next t →
    t.mstatus = (s.mstatus &&& ~~~0x00000088#32) ||| ((s.mstatus.extractLsb' 7 1).zeroExtend 32 <<< 3) ||| 0x00000080#32 ∧
    ReturnStatus s.mstatus t.mstatus ∧ t.pc = s.mepc ∧ t.pipe.ifId = {} ∧ t.pipe.idEx = {}

/-- The pending condition and the cause (R352 to R355): an interrupt is pending exactly when MIE is 1 and a line is high with its
local enable set, from the current levels and not from `mip`; with both pending `IRQ_TIMER_FIRST` decides (log 3). The timer line
and the use of the unlatched levels are the spec's own choices (D6, D8, D9, log 17). -/
def Obligations.InterruptPendingCondition : Prop :=
  ∀ (s : State) (inp : Inputs),
    s.interrupt inp =
      if s.mstatus.getLsbD 3 = true ∧ inp.irqExt = true ∧ s.mie.getLsbD 11 = true ∧
          ¬(s.cfg.irqTimerFirst = true ∧ inp.irqTimer = true ∧ s.mie.getLsbD 7 = true) then some 0x8000000B#32
      else if s.mstatus.getLsbD 3 = true ∧ inp.irqTimer = true ∧ s.mie.getLsbD 7 = true then some 0x80000007#32
      else none

/-- An interrupt at an ordinary instruction (R361, R366): the instruction completes, then the trap is entered with `mepc` = its
successor, its target if it jumps; a write of it to `mstatus`, `mepc` or `mcause` is lost, every other effect stays. That the
instruction completes first and what `mepc` holds are the spec's own choice D4 (log 17); the lost write is D32 and the snapshot D34
and D44 (log 25). Words that are no instruction: UnrecognisedWordAtAStep. -/
def Obligations.InterruptFollowsOrdinaryInstruction : Prop :=
  ∀ (s t : State) (i : Instr) (cause : Word), s.drained → s.front.inEx = true → s.curInputs.reset = false →
    alignedPc s.pc = true → decodeWord (s.fetchWord s.pc) = .ok i → i ≠ .ecall → i ≠ .ebreak → i ≠ .mret →
    s.interrupt s.curInputs = some cause → exec i s = .next t →
    ∃ u, step s = .next (u.endCycle s.curInputs {}) ∧ EntersTrap s t u cause t.pc ∧ SameRest t u

/-- An interrupt at ECALL, EBREAK or MRET pre-empts it (R361): `mepc` is its own address and it has no effect. This is the spec's
own choice D4 (log 17); for MRET it is the case I16, which the spec advises a model to refuse and which runs here as R361 says. -/
def Obligations.InterruptPreemptsTrapClass : Prop :=
  ∀ (s : State) (i : Instr) (cause : Word), s.drained → s.front.inEx = true → s.curInputs.reset = false →
    alignedPc s.pc = true → decodeWord (s.fetchWord s.pc) = .ok i → (i = .ecall ∨ i = .ebreak ∨ i = .mret) →
    s.interrupt s.curInputs = some cause →
    ∃ u, step s = .next (u.endCycle s.curInputs {}) ∧ EntersTrap s s u cause s.pc ∧ SameRest s u

/-! ### The step -/

/-- When the bytes at the PC decode to an instruction, a step under quiet inputs (log 16) is `exec` of it, in the state after the
bubble cycles that fill the pipeline; the clock counts those cycles and its own. A step with its own clock cycles is the model's
form (log 15), the number of cycles the spec's own pipeline (log 22). -/
def Obligations.StepRunsTheDecodedInstruction : Prop :=
  ∀ (s : State) (i : Instr) (b0 b1 b2 b3 : Byte) (rest : List Byte),
    s.drained → s.inputs = [] → alignedPc s.pc = true →
    b0 = s.imem.read s.pc.toNat → b1 = s.imem.read (s.pc.toNat + 1) → b2 = s.imem.read (s.pc.toNat + 2) →
    b3 = s.imem.read (s.pc.toNat + 3) → decode (b0 :: b1 :: b2 :: b3 :: rest) = .ok (i, rest) →
    ∃ f, step s = andThen (exec i s.atEx) (fun t => t.endCycle {} f)

/-- The same with an instruction in EX and any inputs without reset and without an interrupt to take (log 15). -/
def Obligations.StepInExRunsTheInstruction : Prop :=
  ∀ (s : State) (i : Instr), s.drained → s.front.inEx = true → s.curInputs.reset = false → alignedPc s.pc = true →
    decodeWord (s.fetchWord s.pc) = .ok i → s.interrupt s.curInputs = none →
    ∃ f, step s = andThen (exec i s) (fun t => t.endCycle s.curInputs f)

/-- A fetch from a PC whose bits 1:0 are not 00 stops the machine: R122 and the spec's own choice D26 (log 11). -/
def Obligations.MisalignedFetchStops : Prop :=
  ∀ s : State, s.drained → s.inputs = [] → alignedPc s.pc = false → step s = .fault .misalignedFetch

/-- Placing a word where the next instruction is fetched, the model's own stand-in for the load of a program (R406, DESIGN CHOICE,
log 8): the state is drained and quiet, and its fetch gives that word. -/
def Obligations.PlacedWordIsFetched : Prop :=
  ∀ (s : State) (w : Word), s.imem.wf →
    (s.withFetchWord 32 w.toNat).drained ∧ (s.withFetchWord 32 w.toNat).inputs = [] ∧
    (s.withFetchWord 32 w.toNat).pc = s.oldestPc ∧ (s.withFetchWord 32 w.toNat).imem.wf ∧
    (s.withFetchWord 32 w.toNat).fetchWord s.oldestPc = w

/-! ### The pipeline -/

/-- The pipeline invariant holds at reset and after every reset. -/
def Obligations.PipeInvAtReset : Prop := PipeInv State.reset ∧ ∀ s : State, PipeInv s.afterReset

/-- Every clock cycle keeps the pipeline invariant: among its clauses that EX/MEM never holds a load that feeds the instruction in
EX. The pipeline is the spec's own choice (D1, D27 to D30, log 22). -/
def Obligations.CycleKeepsPipeInv : Prop := ∀ s t : State, PipeInv s → s.cycle = .next t → PipeInv t

/-- Forwarding is right (R433 to R437): in every state that meets the pipeline invariant the operands in EX are the registers as
every older instruction leaves them. The forwarding paths are the spec's own choice D29 (log 22). -/
def Obligations.ForwardedOperandsAreCurrent : Prop :=
  ∀ s : State, PipeInv s → s.pipe.idEx.valid = true →
    s.exA = s.settle.reg s.pipe.idEx.rs1 ∧ s.exB = s.settle.reg s.pipe.idEx.rs2

/-- The cycle level refines the instruction level (R450): a clock cycle, with the older instructions then completed, is one cycle of the
instruction level from the state with the older instructions completed; faults and refusals agree too. -/
def Obligations.CycleRefinesInstructionLevel : Prop :=
  ∀ s : State, PipeInv s → s.curInputs.reset = false → andThen s.cycle State.settle = s.settle.instrCycle

/-- One step is a run of the pipeline: cycles with a bubble in EX, then the cycle with the instruction in EX; settled, the state it ends
in is the step's (R450). -/
def Obligations.StepIsARunOfThePipeline : Prop :=
  ∀ s t : State, PipeInv s → (∀ i ∈ s.inputs, i.reset = false) → step s = .next t →
    ∃ k u v, State.cycles k s = .next u ∧ u.pipe.idEx.valid = true ∧ u.cycle = .next v ∧ v.settle = t ∧
      ∀ j < k, ∀ x, State.cycles j s = .next x → x.pipe.idEx.valid = false

/-- The load-use stall lasts one cycle (R430): PC and IF/ID hold, ID/EX takes a bubble, and the next cycle has no stall. Which
stages hold is the spec's own choice D27 (log 22). -/
def Obligations.LoadUseStallsExactlyOneCycle : Prop :=
  ∀ s t : State, s.curInputs.reset = false → s.loadUse = true → s.flush s.curInputs = false → s.cycle = .next t →
    t.pc = s.pc ∧ t.pipe.ifId = s.pipe.ifId ∧ t.pipe.idEx = {} ∧ t.loadUse = false ∧ t.pipe.exMem.rd = s.pipe.idEx.rd ∧
    t.pipe.exMem.memRead = true

/-- A taken jump discards the two instructions behind it (R252, R440, R442): in its cycle IF/ID and ID/EX take bubbles and the PC
its target, stall or not and whether the fetch is valid or not, unless the trap controller acts. That two entries are cleared is the
spec's own choice D30 (log 22). -/
def Obligations.TakenJumpFlushes : Prop :=
  ∀ s t : State, s.curInputs.reset = false → s.exJumpReq = true → s.cycle = .next t →
    t.pipe.ifId = {} ∧ t.pipe.idEx = {} ∧ (s.trapDecision s.curInputs = .none → t.pc = s.exJumpTarget)

/-- Data memory changes in a cycle only by the strobed bytes of a valid store in MEM, at the main memory its address reaches (R104,
R413, R114). That the write lands at the end of the MEM cycle is the spec's own choice D22 (log 22), the lanes of a misaligned
address D23 (log 10). -/
def Obligations.OnlyTheStoreInMemWrites : Prop :=
  ∀ s t : State, s.dmem.wf → s.curInputs.reset = false → s.cycle = .next t → ∀ a : Nat,
    t.dmem.read a =
      match s.target s.pipe.exMem.aluResult with
      | .ram w =>
        if s.pipe.exMem.valid = true ∧ s.pipe.exMem.memWrite = true ∧ a / 4 = w.toNat ∧
            (storeStrobe s.pipe.exMem.funct3 (laneOf s.pipe.exMem.aluResult)).getLsbD (a % 4) = true then
          byteLane (storeData s.pipe.exMem.funct3 (laneOf s.pipe.exMem.aluResult) s.pipe.exMem.storeData) (a % 4)
        else s.dmem.read a
      | _ => s.dmem.read a

/-! ### Rules of the whole machine -/

/-- Every instruction completes in every state, but a store into program text, which is refused (log 12): there is no other
exception or stop (R351, R281). That misaligned accesses and unimplemented CSRs raise nothing rests on the spec's own choices D23
and D13 (log 10, log 19). -/
def Obligations.OnlyTextStoresStop : Prop :=
  ∀ (i : Instr) (s : State),
    (∃ t, exec i s = .next t) ∨
    (exec i s = .refused .storeIntoProgramText ∧
      ∃ rs1 rs2 imm, (i = .sb rs1 rs2 imm ∨ i = .sh rs1 rs2 imm ∨ i = .sw rs1 rs2 imm) ∧
        s.hitsText (s.ea rs1 imm) = true)

/-- What no instruction changes (R50, R54, R123, R47): the parameters, instruction memory, `mip` and the counter; and what only the
six CSR instructions change: `mie`, `mtvec`, `mscratch`, `mtval`, which the trap controller never touches; and what only stores
change: data memory. -/
def Obligations.WhoMayChangeWhat : Prop :=
  ∀ (i : Instr) (s t : State), exec i s = .next t →
    t.cfg = s.cfg ∧ t.imem = s.imem ∧ t.mip = s.mip ∧ t.mcycle64 = s.mcycle64 ∧ t.pipe = s.pipe ∧ t.inputs = s.inputs ∧
    ((∀ rd a x, i ≠ .csrrw rd a x ∧ i ≠ .csrrs rd a x ∧ i ≠ .csrrc rd a x ∧ i ≠ .csrrwi rd a x ∧ i ≠ .csrrsi rd a x ∧
        i ≠ .csrrci rd a x) →
      t.mie = s.mie ∧ t.mtvec = s.mtvec ∧ t.mscratch = s.mscratch ∧ t.mtval = s.mtval ∧
      (i ≠ .ecall → i ≠ .ebreak → i ≠ .mret → t.mstatus = s.mstatus ∧ t.mepc = s.mepc ∧ t.mcause = s.mcause)) ∧
    ((∀ x y m, i ≠ .sb x y m ∧ i ≠ .sh x y m ∧ i ≠ .sw x y m) → t.dmem = s.dmem)

/-- `li rd, imm` (R181, R180) for rd ≠ x0: executing its expansion leaves imm in rd, for every 32-bit imm. The expansion is from
general knowledge (log 20). -/
def Obligations.LoadImmediateExpansionLoads : Prop :=
  ∀ (s : State) (rd : RegIdx) (imm : Word), rd ≠ 0#5 →
    (∃ i t, (Pseudo.li rd imm).expand = [i] ∧ exec i s = .next t ∧ t.reg rd = imm) ∨
    (∃ i j t u, (Pseudo.li rd imm).expand = [i, j] ∧ exec i s = .next t ∧ exec j t = .next u ∧ u.reg rd = imm)

/-- A step at a word that is no instruction, in EX and without reset: it only advances the PC, and an interrupt pending there is
taken after it, `mepc` = pc + 4, as at any ordinary instruction (R331, R361). The default arm is the spec's own choice D16 (log 9),
the boundary and `mepc` D4 (log 17); I5 and I29 advise a model to refuse such words. -/
def Obligations.UnrecognisedWordAtAStep : Prop :=
  ∀ s : State, s.drained → s.front.inEx = true → s.curInputs.reset = false → alignedPc s.pc = true →
    (∀ i, decodeWord (s.fetchWord s.pc) ≠ .ok i) →
    (s.interrupt s.curInputs = none → ∃ f, step s = .next ((s.setPc (s.pc + 4#32)).endCycle s.curInputs f)) ∧
    (∀ cause, s.interrupt s.curInputs = some cause →
      ∃ u, step s = .next (u.endCycle s.curInputs {}) ∧ EntersTrap s s u cause (s.pc + 4#32) ∧ SameRest s u)
end

