-- ==== Sys2Proof/Laws/Alu.lean ====
section
/-! SUPPORT. The ALU, the branch conditions and the shift amounts, one equation per case (40_integer.md R200, 41_control_transfer.md R251). -/

namespace Sys2Proof.Machine

@[simp] theorem alu_add (a b : Word) : alu .add a b = a + b := rfl
@[simp] theorem alu_sub (a b : Word) : alu .sub a b = a - b := rfl
@[simp] theorem alu_xor (a b : Word) : alu .xor a b = a ^^^ b := rfl
@[simp] theorem alu_or (a b : Word) : alu .or a b = a ||| b := rfl
@[simp] theorem alu_and (a b : Word) : alu .and a b = a &&& b := rfl
@[simp] theorem alu_sll (a b : Word) : alu .sll a b = a <<< shiftAmount b := rfl
@[simp] theorem alu_srl (a b : Word) : alu .srl a b = a >>> shiftAmount b := rfl
@[simp] theorem alu_sra (a b : Word) : alu .sra a b = a.sshiftRight (shiftAmount b) := rfl

@[simp] theorem signedLt_iff (a b : Word) : signedLt a b = true ↔ a.toInt < b.toInt := by simp [signedLt]
@[simp] theorem unsignedLt_iff (a b : Word) : unsignedLt a b = true ↔ a.toNat < b.toNat := by simp [unsignedLt]

@[simp] theorem alu_slt (a b : Word) : alu .slt a b = if a.toInt < b.toInt then 1#32 else 0#32 := by
  show boolWord (signedLt a b) = _
  by_cases h : a.toInt < b.toInt <;> simp [boolWord, h]
@[simp] theorem alu_sltu (a b : Word) : alu .sltu a b = if a.toNat < b.toNat then 1#32 else 0#32 := by
  show boolWord (unsignedLt a b) = _
  by_cases h : a.toNat < b.toNat <;> simp [boolWord, h]

/-- The amount is the low five bits: the value modulo 32 (R200). -/
theorem shiftAmount_eq (b : Word) : shiftAmount b = b.toNat % 32 := by
  show (b.extractLsb' 0 5).toNat = _
  rw [BitVec.extractLsb'_toNat]; simp

/-- The amount that the I-immediate of a shift carries is its shamt field (R156). -/
theorem shiftAmount_immShift (f7 : BitVec 7) (shamt : BitVec 5) : shiftAmount (immShift f7 shamt) = shamt.toNat := by
  show ((immShift f7 shamt).extractLsb' 0 5).toNat = _
  congr 1
  ext k hk
  simp only [immShift, immI, BitVec.getElem_extractLsb', BitVec.getLsbD_signExtend, BitVec.getLsbD_append]
  have h1 : k < 12 := by omega
  have h2 : k < 32 := by omega
  simp [h1, h2, hk]

theorem branchCond_beq (a b : Word) : branchCond 0b000#3 a b = true ↔ a = b := by
  show (a == b) = true ↔ _; simp
theorem branchCond_bne (a b : Word) : branchCond 0b001#3 a b = true ↔ a ≠ b := by
  show (a != b) = true ↔ _; simp
theorem branchCond_blt (a b : Word) : branchCond 0b100#3 a b = true ↔ a.toInt < b.toInt := signedLt_iff a b
theorem branchCond_bge (a b : Word) : branchCond 0b101#3 a b = true ↔ a.toInt ≥ b.toInt := by
  show (!signedLt a b) = true ↔ _
  have := signedLt_iff a b
  cases h : signedLt a b <;> simp [h] at this ⊢ <;> omega
theorem branchCond_bltu (a b : Word) : branchCond 0b110#3 a b = true ↔ a.toNat < b.toNat := unsignedLt_iff a b
theorem branchCond_bgeu (a b : Word) : branchCond 0b111#3 a b = true ↔ a.toNat ≥ b.toNat := by
  show (!unsignedLt a b) = true ↔ _
  have := unsignedLt_iff a b
  cases h : unsignedLt a b <;> simp [h] at this ⊢ <;> omega

end Sys2Proof.Machine
end

