-- ==== Sys2Proof/Laws/Decode.lean ====
section
/-! SUPPORT. The decoder and the encoder by their fields: `Shape w i` says which fields of the word `w` make it the instruction
`i` (R141 to R168). `decodeWord_iff` says the decoder reads exactly that; the field lemmas of each format say what the encoder
writes. -/

namespace Sys2Proof

/-- The fields of `w` are those of `i`: opcode and function codes of R163 to R168, registers and immediates of R142 to R156. -/
def Shape (w : Word) : Instr → Prop
  | .lui rd imm => opcodeOf w = 0b0110111#7 ∧ rdOf w = rd ∧ immUOf w = imm
  | .auipc rd imm => opcodeOf w = 0b0010111#7 ∧ rdOf w = rd ∧ immUOf w = imm
  | .addi rd rs1 imm => opcodeOf w = 0b0010011#7 ∧ funct3Of w = 0b000#3 ∧ rdOf w = rd ∧ rs1fOf w = rs1 ∧ immIOf w = imm
  | .slti rd rs1 imm => opcodeOf w = 0b0010011#7 ∧ funct3Of w = 0b010#3 ∧ rdOf w = rd ∧ rs1fOf w = rs1 ∧ immIOf w = imm
  | .sltiu rd rs1 imm => opcodeOf w = 0b0010011#7 ∧ funct3Of w = 0b011#3 ∧ rdOf w = rd ∧ rs1fOf w = rs1 ∧ immIOf w = imm
  | .xori rd rs1 imm => opcodeOf w = 0b0010011#7 ∧ funct3Of w = 0b100#3 ∧ rdOf w = rd ∧ rs1fOf w = rs1 ∧ immIOf w = imm
  | .ori rd rs1 imm => opcodeOf w = 0b0010011#7 ∧ funct3Of w = 0b110#3 ∧ rdOf w = rd ∧ rs1fOf w = rs1 ∧ immIOf w = imm
  | .andi rd rs1 imm => opcodeOf w = 0b0010011#7 ∧ funct3Of w = 0b111#3 ∧ rdOf w = rd ∧ rs1fOf w = rs1 ∧ immIOf w = imm
  | .slli rd rs1 shamt => opcodeOf w = 0b0010011#7 ∧ funct3Of w = 0b001#3 ∧ funct7Of w = 0b0000000#7 ∧ rdOf w = rd ∧ rs1fOf w = rs1 ∧ rs2fOf w = shamt
  | .srli rd rs1 shamt => opcodeOf w = 0b0010011#7 ∧ funct3Of w = 0b101#3 ∧ funct7Of w = 0b0000000#7 ∧ rdOf w = rd ∧ rs1fOf w = rs1 ∧ rs2fOf w = shamt
  | .srai rd rs1 shamt => opcodeOf w = 0b0010011#7 ∧ funct3Of w = 0b101#3 ∧ funct7Of w = 0b0100000#7 ∧ rdOf w = rd ∧ rs1fOf w = rs1 ∧ rs2fOf w = shamt
  | .add rd rs1 rs2 => opcodeOf w = 0b0110011#7 ∧ funct3Of w = 0b000#3 ∧ funct7Of w = 0b0000000#7 ∧ rdOf w = rd ∧ rs1fOf w = rs1 ∧ rs2fOf w = rs2
  | .sub rd rs1 rs2 => opcodeOf w = 0b0110011#7 ∧ funct3Of w = 0b000#3 ∧ funct7Of w = 0b0100000#7 ∧ rdOf w = rd ∧ rs1fOf w = rs1 ∧ rs2fOf w = rs2
  | .sll rd rs1 rs2 => opcodeOf w = 0b0110011#7 ∧ funct3Of w = 0b001#3 ∧ funct7Of w = 0b0000000#7 ∧ rdOf w = rd ∧ rs1fOf w = rs1 ∧ rs2fOf w = rs2
  | .slt rd rs1 rs2 => opcodeOf w = 0b0110011#7 ∧ funct3Of w = 0b010#3 ∧ funct7Of w = 0b0000000#7 ∧ rdOf w = rd ∧ rs1fOf w = rs1 ∧ rs2fOf w = rs2
  | .sltu rd rs1 rs2 => opcodeOf w = 0b0110011#7 ∧ funct3Of w = 0b011#3 ∧ funct7Of w = 0b0000000#7 ∧ rdOf w = rd ∧ rs1fOf w = rs1 ∧ rs2fOf w = rs2
  | .xor rd rs1 rs2 => opcodeOf w = 0b0110011#7 ∧ funct3Of w = 0b100#3 ∧ funct7Of w = 0b0000000#7 ∧ rdOf w = rd ∧ rs1fOf w = rs1 ∧ rs2fOf w = rs2
  | .srl rd rs1 rs2 => opcodeOf w = 0b0110011#7 ∧ funct3Of w = 0b101#3 ∧ funct7Of w = 0b0000000#7 ∧ rdOf w = rd ∧ rs1fOf w = rs1 ∧ rs2fOf w = rs2
  | .sra rd rs1 rs2 => opcodeOf w = 0b0110011#7 ∧ funct3Of w = 0b101#3 ∧ funct7Of w = 0b0100000#7 ∧ rdOf w = rd ∧ rs1fOf w = rs1 ∧ rs2fOf w = rs2
  | .or rd rs1 rs2 => opcodeOf w = 0b0110011#7 ∧ funct3Of w = 0b110#3 ∧ funct7Of w = 0b0000000#7 ∧ rdOf w = rd ∧ rs1fOf w = rs1 ∧ rs2fOf w = rs2
  | .and rd rs1 rs2 => opcodeOf w = 0b0110011#7 ∧ funct3Of w = 0b111#3 ∧ funct7Of w = 0b0000000#7 ∧ rdOf w = rd ∧ rs1fOf w = rs1 ∧ rs2fOf w = rs2
  | .jal rd off => opcodeOf w = 0b1101111#7 ∧ rdOf w = rd ∧ immJOf w = off
  | .jalr rd rs1 imm => opcodeOf w = 0b1100111#7 ∧ funct3Of w = 0b000#3 ∧ rdOf w = rd ∧ rs1fOf w = rs1 ∧ immIOf w = imm
  | .beq rs1 rs2 off => opcodeOf w = 0b1100011#7 ∧ funct3Of w = 0b000#3 ∧ rs1fOf w = rs1 ∧ rs2fOf w = rs2 ∧ immBOf w = off
  | .bne rs1 rs2 off => opcodeOf w = 0b1100011#7 ∧ funct3Of w = 0b001#3 ∧ rs1fOf w = rs1 ∧ rs2fOf w = rs2 ∧ immBOf w = off
  | .blt rs1 rs2 off => opcodeOf w = 0b1100011#7 ∧ funct3Of w = 0b100#3 ∧ rs1fOf w = rs1 ∧ rs2fOf w = rs2 ∧ immBOf w = off
  | .bge rs1 rs2 off => opcodeOf w = 0b1100011#7 ∧ funct3Of w = 0b101#3 ∧ rs1fOf w = rs1 ∧ rs2fOf w = rs2 ∧ immBOf w = off
  | .bltu rs1 rs2 off => opcodeOf w = 0b1100011#7 ∧ funct3Of w = 0b110#3 ∧ rs1fOf w = rs1 ∧ rs2fOf w = rs2 ∧ immBOf w = off
  | .bgeu rs1 rs2 off => opcodeOf w = 0b1100011#7 ∧ funct3Of w = 0b111#3 ∧ rs1fOf w = rs1 ∧ rs2fOf w = rs2 ∧ immBOf w = off
  | .lb rd rs1 imm => opcodeOf w = 0b0000011#7 ∧ funct3Of w = 0b000#3 ∧ rdOf w = rd ∧ rs1fOf w = rs1 ∧ immIOf w = imm
  | .lh rd rs1 imm => opcodeOf w = 0b0000011#7 ∧ funct3Of w = 0b001#3 ∧ rdOf w = rd ∧ rs1fOf w = rs1 ∧ immIOf w = imm
  | .lw rd rs1 imm => opcodeOf w = 0b0000011#7 ∧ funct3Of w = 0b010#3 ∧ rdOf w = rd ∧ rs1fOf w = rs1 ∧ immIOf w = imm
  | .lbu rd rs1 imm => opcodeOf w = 0b0000011#7 ∧ funct3Of w = 0b100#3 ∧ rdOf w = rd ∧ rs1fOf w = rs1 ∧ immIOf w = imm
  | .lhu rd rs1 imm => opcodeOf w = 0b0000011#7 ∧ funct3Of w = 0b101#3 ∧ rdOf w = rd ∧ rs1fOf w = rs1 ∧ immIOf w = imm
  | .sb rs1 rs2 imm => opcodeOf w = 0b0100011#7 ∧ funct3Of w = 0b000#3 ∧ rs1fOf w = rs1 ∧ rs2fOf w = rs2 ∧ immSOf w = imm
  | .sh rs1 rs2 imm => opcodeOf w = 0b0100011#7 ∧ funct3Of w = 0b001#3 ∧ rs1fOf w = rs1 ∧ rs2fOf w = rs2 ∧ immSOf w = imm
  | .sw rs1 rs2 imm => opcodeOf w = 0b0100011#7 ∧ funct3Of w = 0b010#3 ∧ rs1fOf w = rs1 ∧ rs2fOf w = rs2 ∧ immSOf w = imm
  | .csrrw rd csr rs1 => opcodeOf w = 0b1110011#7 ∧ funct3Of w = 0b001#3 ∧ rdOf w = rd ∧ rs1fOf w = rs1 ∧ csrOf w = csr
  | .csrrs rd csr rs1 => opcodeOf w = 0b1110011#7 ∧ funct3Of w = 0b010#3 ∧ rdOf w = rd ∧ rs1fOf w = rs1 ∧ csrOf w = csr
  | .csrrc rd csr rs1 => opcodeOf w = 0b1110011#7 ∧ funct3Of w = 0b011#3 ∧ rdOf w = rd ∧ rs1fOf w = rs1 ∧ csrOf w = csr
  | .csrrwi rd csr u => opcodeOf w = 0b1110011#7 ∧ funct3Of w = 0b101#3 ∧ rdOf w = rd ∧ rs1fOf w = u ∧ csrOf w = csr
  | .csrrsi rd csr u => opcodeOf w = 0b1110011#7 ∧ funct3Of w = 0b110#3 ∧ rdOf w = rd ∧ rs1fOf w = u ∧ csrOf w = csr
  | .csrrci rd csr u => opcodeOf w = 0b1110011#7 ∧ funct3Of w = 0b111#3 ∧ rdOf w = rd ∧ rs1fOf w = u ∧ csrOf w = csr
  | .ecall => w = 0x00000073#32
  | .ebreak => w = 0x00100073#32
  | .mret => w = 0x30200073#32
  | .fence rd rs1 fm pred succ => opcodeOf w = 0b0001111#7 ∧ funct3Of w = 0b000#3 ∧ rdOf w = rd ∧ rs1fOf w = rs1 ∧ w.extractLsb' 28 4 = fm ∧ w.extractLsb' 24 4 = pred ∧ w.extractLsb' 20 4 = succ


/-! ### The decoder reads the shape -/

/-- The last of eight funct3 values. -/
theorem funct3_last : ∀ x : BitVec 3, (x = 0#3 → False) → (x = 1#3 → False) → (x = 2#3 → False) → (x = 3#3 → False) →
    (x = 4#3 → False) → (x = 5#3 → False) → (x = 6#3 → False) → x = 7#3 := by decide

theorem shape_of_decodeBranch {w : Word} {i : Instr} (ho : opcodeOf w = 0b1100011#7) (h : decodeBranch w = .ok i) :
    Shape w i := by
  unfold decodeBranch at h
  split at h <;> cases h <;> simp_all [Shape]

theorem shape_of_decodeLoad {w : Word} {i : Instr} (ho : opcodeOf w = 0b0000011#7) (h : decodeLoad w = .ok i) :
    Shape w i := by
  unfold decodeLoad at h
  split at h <;> cases h <;> simp_all [Shape]

theorem shape_of_decodeStore {w : Word} {i : Instr} (ho : opcodeOf w = 0b0100011#7) (h : decodeStore w = .ok i) :
    Shape w i := by
  unfold decodeStore at h
  split at h <;> cases h <;> simp_all [Shape]

theorem shape_of_decodeJalr {w : Word} {i : Instr} (ho : opcodeOf w = 0b1100111#7) (h : decodeJalr w = .ok i) :
    Shape w i := by
  unfold decodeJalr at h
  split at h <;> cases h <;> simp_all [Shape]

theorem shape_of_decodeMiscMem {w : Word} {i : Instr} (ho : opcodeOf w = 0b0001111#7) (h : decodeMiscMem w = .ok i) :
    Shape w i := by
  unfold decodeMiscMem at h
  split at h <;> cases h <;> simp_all [Shape]

theorem shape_of_decodeOpImm {w : Word} {i : Instr} (ho : opcodeOf w = 0b0010011#7) (h : decodeOpImm w = .ok i) :
    Shape w i := by
  unfold decodeOpImm at h
  split at h
  case h_2 => split at h <;> cases h <;> simp_all [Shape]
  case h_6 => split at h <;> cases h <;> simp_all [Shape]
  case h_8 =>
    cases h
    exact ⟨ho, funct3_last _ ‹_› ‹_› ‹_› ‹_› ‹_› ‹_› ‹_›, rfl, rfl, rfl⟩
  all_goals cases h; simp_all [Shape]

theorem shape_of_decodeOp {w : Word} {i : Instr} (ho : opcodeOf w = 0b0110011#7) (h : decodeOp w = .ok i) :
    Shape w i := by
  unfold decodeOp at h
  split at h
  case h_1 =>
    split at h
    case h_8 =>
      cases h
      exact ⟨ho, funct3_last _ ‹_› ‹_› ‹_› ‹_› ‹_› ‹_› ‹_›, ‹_›, rfl, rfl, rfl⟩
    all_goals cases h; simp_all [Shape]
  case h_2 => split at h <;> cases h <;> simp_all [Shape]
  case h_3 => cases h

theorem shape_of_decodeSystem {w : Word} {i : Instr} (ho : opcodeOf w = 0b1110011#7) (h : decodeSystem w = .ok i) :
    Shape w i := by
  unfold decodeSystem at h
  split at h
  case h_1 =>
    unfold decodeSystemWord at h
    split at h <;> cases h <;> rfl
  case h_8 => cases h
  all_goals cases h; simp_all [Shape]

/-- What the decoder reads has the shape of the word. -/
theorem shape_of_decodeWord {w : Word} {i : Instr} (h : decodeWord w = .ok i) : Shape w i := by
  unfold decodeWord at h
  split at h
  case h_4 => exact shape_of_decodeJalr ‹_› h
  case h_5 => exact shape_of_decodeBranch ‹_› h
  case h_6 => exact shape_of_decodeLoad ‹_› h
  case h_7 => exact shape_of_decodeStore ‹_› h
  case h_8 => exact shape_of_decodeOpImm ‹_› h
  case h_9 => exact shape_of_decodeOp ‹_› h
  case h_10 => exact shape_of_decodeMiscMem ‹_› h
  case h_11 => exact shape_of_decodeSystem ‹_› h
  case h_12 => cases h
  all_goals cases h; simp_all [Shape]

/-- A word with the shape of an instruction decodes to it. -/
theorem decodeWord_of_shape {w : Word} {i : Instr} (h : Shape w i) : decodeWord w = .ok i := by
  cases i with
  | ecall => cases h; decide
  | ebreak => cases h; decide
  | mret => cases h; decide
  | _ =>
    simp only [Shape] at h
    simp [decodeWord, decodeJalr, decodeBranch, decodeLoad, decodeStore, decodeOpImm, decodeOp, decodeMiscMem,
      decodeSystem, h]

/-- The decoder reads an instruction exactly from the words that have its shape. -/
theorem decodeWord_iff {w : Word} {i : Instr} : decodeWord w = .ok i ↔ Shape w i :=
  ⟨shape_of_decodeWord, decodeWord_of_shape⟩

/-! ### The fields of each format (R141) -/

/-- Taking a field out of a concatenation, when it lies wholly in the low part. -/
theorem field_low {n m : Nat} (x : BitVec n) (y : BitVec m) (s l : Nat) (h : s + l ≤ m) :
    (x ++ y).extractLsb' s l = y.extractLsb' s l := by
  ext k hk
  simp only [BitVec.getElem_extractLsb', BitVec.getLsbD_append]
  rw [if_pos (by omega)]

/-- Taking a field out of a concatenation, when it lies wholly in the high part. -/
theorem field_high {n m : Nat} (x : BitVec n) (y : BitVec m) (s l : Nat) (h : m ≤ s) :
    (x ++ y).extractLsb' s l = x.extractLsb' (s - m) l := by
  ext k hk
  simp only [BitVec.getElem_extractLsb', BitVec.getLsbD_append]
  rw [if_neg (by omega)]
  congr 1
  omega

/-- A field that is the whole of what it is taken from. -/
theorem field_all {n : Nat} (x : BitVec n) : x.extractLsb' 0 n = x := by
  ext k hk
  simp [BitVec.getElem_eq_testBit_toNat]

section
variable (f7 : BitVec 7) (f3 : BitVec 3) (op : BitVec 7) (rd rs1 rs2 : RegIdx) (imm : BitVec 12) (imm20 : BitVec 20)
  (off : BitVec 13) (joff : BitVec 21)

theorem opcode_rType : opcodeOf (rType f7 f3 op rd rs1 rs2) = op := by
  rw [opcodeOf, rType, field_low, field_all] <;> decide
theorem rd_rType : rdOf (rType f7 f3 op rd rs1 rs2) = rd := by
  rw [rdOf, rType, field_high, field_low, field_all] <;> decide
theorem funct3_rType : funct3Of (rType f7 f3 op rd rs1 rs2) = f3 := by
  rw [funct3Of, rType, field_high, field_high, field_low, field_all] <;> decide
theorem rs1_rType : rs1fOf (rType f7 f3 op rd rs1 rs2) = rs1 := by
  rw [rs1fOf, rType, field_high, field_high, field_high, field_low, field_all] <;> decide
theorem rs2_rType : rs2fOf (rType f7 f3 op rd rs1 rs2) = rs2 := by
  rw [rs2fOf, rType, field_high, field_high, field_high, field_high, field_low, field_all] <;> decide
theorem funct7_rType : funct7Of (rType f7 f3 op rd rs1 rs2) = f7 := by
  rw [funct7Of, rType, field_high, field_high, field_high, field_high, field_high, field_all] <;> decide

theorem opcode_iType : opcodeOf (iType f3 op rd rs1 imm) = op := by
  rw [opcodeOf, iType, field_low, field_all] <;> decide
theorem rd_iType : rdOf (iType f3 op rd rs1 imm) = rd := by
  rw [rdOf, iType, field_high, field_low, field_all] <;> decide
theorem funct3_iType : funct3Of (iType f3 op rd rs1 imm) = f3 := by
  rw [funct3Of, iType, field_high, field_high, field_low, field_all] <;> decide
theorem rs1_iType : rs1fOf (iType f3 op rd rs1 imm) = rs1 := by
  rw [rs1fOf, iType, field_high, field_high, field_high, field_low, field_all] <;> decide
theorem immI_iType : immIOf (iType f3 op rd rs1 imm) = imm := by
  rw [immIOf, iType, field_high, field_high, field_high, field_high, field_all] <;> decide

theorem csr_iType : csrOf (iType f3 op rd rs1 imm) = imm := immI_iType f3 op rd rs1 imm
theorem fm_iType (fm pred succ : BitVec 4) : (iType f3 op rd rs1 (fm ++ pred ++ succ)).extractLsb' 28 4 = fm := by
  rw [iType, field_high, field_high, field_high, field_high, field_high, field_high, field_all] <;> decide
theorem pred_iType (fm pred succ : BitVec 4) : (iType f3 op rd rs1 (fm ++ pred ++ succ)).extractLsb' 24 4 = pred := by
  rw [iType, field_high, field_high, field_high, field_high, field_high, field_low, field_all] <;> decide
theorem succ_iType (fm pred succ : BitVec 4) : (iType f3 op rd rs1 (fm ++ pred ++ succ)).extractLsb' 20 4 = succ := by
  rw [iType, field_high, field_high, field_high, field_high, field_low, field_all] <;> decide

theorem opcode_sType : opcodeOf (sType f3 op rs1 rs2 imm) = op := by
  rw [opcodeOf, sType, field_low, field_all] <;> decide
theorem funct3_sType : funct3Of (sType f3 op rs1 rs2 imm) = f3 := by
  rw [funct3Of, sType, field_high, field_high, field_low, field_all] <;> decide
theorem rs1_sType : rs1fOf (sType f3 op rs1 rs2 imm) = rs1 := by
  rw [rs1fOf, sType, field_high, field_high, field_high, field_low, field_all] <;> decide
theorem rs2_sType : rs2fOf (sType f3 op rs1 rs2 imm) = rs2 := by
  rw [rs2fOf, sType, field_high, field_high, field_high, field_high, field_low, field_all] <;> decide

theorem opcode_bType : opcodeOf (bType f3 op rs1 rs2 off) = op := by
  rw [opcodeOf, bType, field_low, field_all] <;> decide
theorem funct3_bType : funct3Of (bType f3 op rs1 rs2 off) = f3 := by
  rw [funct3Of, bType, field_high, field_high, field_high, field_low, field_all] <;> decide
theorem rs1_bType : rs1fOf (bType f3 op rs1 rs2 off) = rs1 := by
  rw [rs1fOf, bType, field_high, field_high, field_high, field_high, field_low, field_all] <;> decide
theorem rs2_bType : rs2fOf (bType f3 op rs1 rs2 off) = rs2 := by
  rw [rs2fOf, bType, field_high, field_high, field_high, field_high, field_high, field_low, field_all] <;> decide

theorem opcode_uType : opcodeOf (uType op rd imm20) = op := by
  rw [opcodeOf, uType, field_low, field_all] <;> decide
theorem rd_uType : rdOf (uType op rd imm20) = rd := by
  rw [rdOf, uType, field_high, field_low, field_all] <;> decide
theorem immU_uType : immUOf (uType op rd imm20) = imm20 := by
  rw [immUOf, uType, field_high, field_high, field_all] <;> decide

theorem opcode_jType : opcodeOf (jType op rd joff) = op := by
  rw [opcodeOf, jType, field_low, field_all] <;> decide
theorem rd_jType : rdOf (jType op rd joff) = rd := by
  rw [rdOf, jType, field_high, field_low, field_all] <;> decide

/-- Two neighbouring fields of a value, put together again. -/
theorem fields_join {n : Nat} (x : BitVec n) (s a b : Nat) :
    x.extractLsb' (s + a) b ++ x.extractLsb' s a = x.extractLsb' s (b + a) := by
  ext k hk
  simp only [BitVec.getElem_append, BitVec.getElem_extractLsb']
  split
  · rfl
  · congr 1; omega

/-- An even offset is its bits above bit 0 over a 0. -/
theorem even_join {n : Nat} (x : BitVec (n + 1)) (h : evenOffset x = true) : x.extractLsb' 1 n ++ 0#1 = x := by
  ext k hk
  simp only [BitVec.getElem_append, BitVec.getElem_extractLsb']
  split
  · have : k = 0 := by omega
    subst this
    simpa [evenOffset] using h
  · rw [show 1 + (k - 1) = k by omega, BitVec.getLsbD_eq_getElem hk]

theorem immS_sType : immSOf (sType f3 op rs1 rs2 imm) = imm := by
  have h1 : (sType f3 op rs1 rs2 imm).extractLsb' 25 7 = imm.extractLsb' 5 7 := by
    rw [sType, field_high, field_high, field_high, field_high, field_high, field_all] <;> decide
  have h2 : (sType f3 op rs1 rs2 imm).extractLsb' 7 5 = imm.extractLsb' 0 5 := by
    rw [sType, field_high, field_low, field_all] <;> decide
  rw [immSOf, h1, h2]
  exact (fields_join imm 0 5 7).trans (field_all imm)

theorem immB_bType (h : evenOffset off = true) : immBOf (bType f3 op rs1 rs2 off) = off := by
  have h1 : (bType f3 op rs1 rs2 off).extractLsb' 31 1 = off.extractLsb' 12 1 := by
    rw [bType, field_high, field_high, field_high, field_high, field_high, field_high, field_high, field_all] <;> decide
  have h2 : (bType f3 op rs1 rs2 off).extractLsb' 7 1 = off.extractLsb' 11 1 := by
    rw [bType, field_high, field_low, field_all] <;> decide
  have h3 : (bType f3 op rs1 rs2 off).extractLsb' 25 6 = off.extractLsb' 5 6 := by
    rw [bType, field_high, field_high, field_high, field_high, field_high, field_high, field_low, field_all] <;> decide
  have h4 : (bType f3 op rs1 rs2 off).extractLsb' 8 4 = off.extractLsb' 1 4 := by
    rw [bType, field_high, field_high, field_low, field_all] <;> decide
  have j1 : off.extractLsb' 12 1 ++ off.extractLsb' 11 1 = off.extractLsb' 11 2 := fields_join off 11 1 1
  have j2 : off.extractLsb' 11 2 ++ off.extractLsb' 5 6 = off.extractLsb' 5 8 := fields_join off 5 6 2
  have j3 : off.extractLsb' 5 8 ++ off.extractLsb' 1 4 = off.extractLsb' 1 12 := fields_join off 1 4 8
  rw [immBOf, h1, h2, h3, h4, j1, j2, j3]
  exact even_join off h

theorem immJ_jType (h : evenOffset joff = true) : immJOf (jType op rd joff) = joff := by
  have h1 : (jType op rd joff).extractLsb' 31 1 = joff.extractLsb' 20 1 := by
    rw [jType, field_high, field_high, field_high, field_high, field_high, field_all] <;> decide
  have h2 : (jType op rd joff).extractLsb' 12 8 = joff.extractLsb' 12 8 := by
    rw [jType, field_high, field_high, field_low, field_all] <;> decide
  have h3 : (jType op rd joff).extractLsb' 20 1 = joff.extractLsb' 11 1 := by
    rw [jType, field_high, field_high, field_high, field_low, field_all] <;> decide
  have h4 : (jType op rd joff).extractLsb' 21 10 = joff.extractLsb' 1 10 := by
    rw [jType, field_high, field_high, field_high, field_high, field_low, field_all] <;> decide
  have j1 : joff.extractLsb' 20 1 ++ joff.extractLsb' 12 8 = joff.extractLsb' 12 9 := fields_join joff 12 8 1
  have j2 : joff.extractLsb' 12 9 ++ joff.extractLsb' 11 1 = joff.extractLsb' 11 10 := fields_join joff 11 1 9
  have j3 : joff.extractLsb' 11 10 ++ joff.extractLsb' 1 10 = joff.extractLsb' 1 20 := fields_join joff 1 10 10
  rw [immJOf, h1, h2, h3, h4, j1, j2, j3]
  exact even_join joff h

end

/-! ### The opcode table's masks -/

theorem and_op (w : Word) : w &&& 0x0000007F#32 = (opcodeOf w).zeroExtend 32 := by
  apply BitVec.eq_of_getLsbD_eq
  intro i hi
  unfold opcodeOf
  interval_cases i <;> simp
theorem and_op_f3 (w : Word) : w &&& 0x0000707F#32 = (opcodeOf w).zeroExtend 32 ||| ((funct3Of w).zeroExtend 32) <<< 12 := by
  apply BitVec.eq_of_getLsbD_eq
  intro i hi
  unfold opcodeOf funct3Of
  interval_cases i <;> simp
theorem and_op_f3_f7 (w : Word) : w &&& 0xFE00707F#32 =
    (opcodeOf w).zeroExtend 32 ||| ((funct3Of w).zeroExtend 32) <<< 12 ||| ((funct7Of w).zeroExtend 32) <<< 25 := by
  apply BitVec.eq_of_getLsbD_eq
  intro i hi
  unfold opcodeOf funct3Of funct7Of
  interval_cases i <;> simp

/-- The three fixed fields of a masked word can be read back from it. -/
theorem fixed_inj (a b : BitVec 7) (c d : BitVec 3) (e f : BitVec 7) :
    (a.zeroExtend 32 ||| (c.zeroExtend 32) <<< 12 ||| (e.zeroExtend 32) <<< 25 : Word) =
    b.zeroExtend 32 ||| (d.zeroExtend 32) <<< 12 ||| (f.zeroExtend 32) <<< 25 ↔ a = b ∧ c = d ∧ e = f := by
  constructor
  · intro h
    refine ⟨?_, ?_, ?_⟩
    · apply BitVec.eq_of_getLsbD_eq
      intro i hi
      have := congrArg (fun w : Word => w.getLsbD i) h
      interval_cases i <;> simpa using this
    · apply BitVec.eq_of_getLsbD_eq
      intro i hi
      have := congrArg (fun w : Word => w.getLsbD (12 + i)) h
      interval_cases i <;> simpa using this
    · apply BitVec.eq_of_getLsbD_eq
      intro i hi
      have := congrArg (fun w : Word => w.getLsbD (25 + i)) h
      interval_cases i <;> simpa using this
  · rintro ⟨rfl, rfl, rfl⟩; rfl

/-- A row that fixes the opcode. -/
theorem masked_op {w c : Word} (h : c &&& 0x0000007F#32 = c) : w &&& 0x0000007F#32 = c ↔ opcodeOf w = opcodeOf c := by
  conv_lhs => rw [← h, and_op, and_op]
  simpa using fixed_inj (opcodeOf w) (opcodeOf c) 0 0 0 0
/-- A row that fixes opcode and funct3. -/
theorem masked_op_f3 {w c : Word} (h : c &&& 0x0000707F#32 = c) :
    w &&& 0x0000707F#32 = c ↔ opcodeOf w = opcodeOf c ∧ funct3Of w = funct3Of c := by
  conv_lhs => rw [← h, and_op_f3, and_op_f3]
  simpa using fixed_inj (opcodeOf w) (opcodeOf c) (funct3Of w) (funct3Of c) 0 0
/-- A row that fixes opcode, funct3 and funct7. -/
theorem masked_op_f3_f7 {w c : Word} (h : c &&& 0xFE00707F#32 = c) :
    w &&& 0xFE00707F#32 = c ↔ opcodeOf w = opcodeOf c ∧ funct3Of w = funct3Of c ∧ funct7Of w = funct7Of c := by
  conv_lhs => rw [← h, and_op_f3_f7, and_op_f3_f7]
  exact fixed_inj (opcodeOf w) (opcodeOf c) (funct3Of w) (funct3Of c) (funct7Of w) (funct7Of c)

/-! ### The bytes of a word -/

/-- The four lanes of a word, put together again, are the word (R105). -/
theorem wordOfBytes_lanes (w : Word) :
    wordOfBytes (byteLane w 0) (byteLane w 1) (byteLane w 2) (byteLane w 3) = w := by
  have j1 : w.extractLsb' 24 8 ++ w.extractLsb' 16 8 = w.extractLsb' 16 16 := fields_join w 16 8 8
  have j2 : w.extractLsb' 16 16 ++ w.extractLsb' 8 8 = w.extractLsb' 8 24 := fields_join w 8 8 16
  have j3 : w.extractLsb' 8 24 ++ w.extractLsb' 0 8 = w.extractLsb' 0 32 := fields_join w 0 8 24
  show w.extractLsb' 24 8 ++ w.extractLsb' 16 8 ++ w.extractLsb' 8 8 ++ w.extractLsb' 0 8 = w
  rw [j1, j2, j3, field_all]

end Sys2Proof
end

