-- ==== Sys2Proof/Laws/State.lean ====
section
/-! SUPPORT. One lemma per field of `State` per update: what each named operation leaves in each field, so that no later proof
unfolds a record update. -/

namespace Sys2Proof.Machine

/-! ### setReg -/

@[simp] theorem State.setReg_cfg (s : State) (i : RegIdx) (v : Word) : (s.setReg i v).cfg = s.cfg := rfl
@[simp] theorem State.setReg_pc (s : State) (i : RegIdx) (v : Word) : (s.setReg i v).pc = s.pc := rfl
@[simp] theorem State.setReg_regs (s : State) (i : RegIdx) (v : Word) : (s.setReg i v).regs = regWrite s.regs i v := rfl
@[simp] theorem State.setReg_mstatus (s : State) (i : RegIdx) (v : Word) : (s.setReg i v).mstatus = s.mstatus := rfl
@[simp] theorem State.setReg_mie (s : State) (i : RegIdx) (v : Word) : (s.setReg i v).mie = s.mie := rfl
@[simp] theorem State.setReg_mtvec (s : State) (i : RegIdx) (v : Word) : (s.setReg i v).mtvec = s.mtvec := rfl
@[simp] theorem State.setReg_mscratch (s : State) (i : RegIdx) (v : Word) : (s.setReg i v).mscratch = s.mscratch := rfl
@[simp] theorem State.setReg_mepc (s : State) (i : RegIdx) (v : Word) : (s.setReg i v).mepc = s.mepc := rfl
@[simp] theorem State.setReg_mcause (s : State) (i : RegIdx) (v : Word) : (s.setReg i v).mcause = s.mcause := rfl
@[simp] theorem State.setReg_mtval (s : State) (i : RegIdx) (v : Word) : (s.setReg i v).mtval = s.mtval := rfl
@[simp] theorem State.setReg_mip (s : State) (i : RegIdx) (v : Word) : (s.setReg i v).mip = s.mip := rfl
@[simp] theorem State.setReg_mcycle64 (s : State) (i : RegIdx) (v : Word) : (s.setReg i v).mcycle64 = s.mcycle64 := rfl
@[simp] theorem State.setReg_imem (s : State) (i : RegIdx) (v : Word) : (s.setReg i v).imem = s.imem := rfl
@[simp] theorem State.setReg_dmem (s : State) (i : RegIdx) (v : Word) : (s.setReg i v).dmem = s.dmem := rfl
@[simp] theorem State.setReg_pipe (s : State) (i : RegIdx) (v : Word) : (s.setReg i v).pipe = s.pipe := rfl
@[simp] theorem State.setReg_front (s : State) (i : RegIdx) (v : Word) : (s.setReg i v).front = s.front := rfl
@[simp] theorem State.setReg_inputs (s : State) (i : RegIdx) (v : Word) : (s.setReg i v).inputs = s.inputs := rfl
@[simp] theorem State.setReg_deviceReads (s : State) (i : RegIdx) (v : Word) : (s.setReg i v).deviceReads = s.deviceReads := rfl

/-! ### setPc -/

@[simp] theorem State.setPc_cfg (s : State) (t : Word) : (s.setPc t).cfg = s.cfg := rfl
@[simp] theorem State.setPc_pc (s : State) (t : Word) : (s.setPc t).pc = t := rfl
@[simp] theorem State.setPc_regs (s : State) (t : Word) : (s.setPc t).regs = s.regs := rfl
@[simp] theorem State.setPc_mstatus (s : State) (t : Word) : (s.setPc t).mstatus = s.mstatus := rfl
@[simp] theorem State.setPc_mie (s : State) (t : Word) : (s.setPc t).mie = s.mie := rfl
@[simp] theorem State.setPc_mtvec (s : State) (t : Word) : (s.setPc t).mtvec = s.mtvec := rfl
@[simp] theorem State.setPc_mscratch (s : State) (t : Word) : (s.setPc t).mscratch = s.mscratch := rfl
@[simp] theorem State.setPc_mepc (s : State) (t : Word) : (s.setPc t).mepc = s.mepc := rfl
@[simp] theorem State.setPc_mcause (s : State) (t : Word) : (s.setPc t).mcause = s.mcause := rfl
@[simp] theorem State.setPc_mtval (s : State) (t : Word) : (s.setPc t).mtval = s.mtval := rfl
@[simp] theorem State.setPc_mip (s : State) (t : Word) : (s.setPc t).mip = s.mip := rfl
@[simp] theorem State.setPc_mcycle64 (s : State) (t : Word) : (s.setPc t).mcycle64 = s.mcycle64 := rfl
@[simp] theorem State.setPc_imem (s : State) (t : Word) : (s.setPc t).imem = s.imem := rfl
@[simp] theorem State.setPc_dmem (s : State) (t : Word) : (s.setPc t).dmem = s.dmem := rfl
@[simp] theorem State.setPc_pipe (s : State) (t : Word) : (s.setPc t).pipe = s.pipe := rfl
@[simp] theorem State.setPc_front (s : State) (t : Word) : (s.setPc t).front = s.front := rfl
@[simp] theorem State.setPc_inputs (s : State) (t : Word) : (s.setPc t).inputs = s.inputs := rfl
@[simp] theorem State.setPc_deviceReads (s : State) (t : Word) : (s.setPc t).deviceReads = s.deviceReads := rfl

/-! ### advance -/

@[simp] theorem State.advance_cfg (s : State) : (s.advance).cfg = s.cfg := rfl
@[simp] theorem State.advance_pc (s : State) : (s.advance).pc = s.pc + 4#32 := rfl
@[simp] theorem State.advance_regs (s : State) : (s.advance).regs = s.regs := rfl
@[simp] theorem State.advance_mstatus (s : State) : (s.advance).mstatus = s.mstatus := rfl
@[simp] theorem State.advance_mie (s : State) : (s.advance).mie = s.mie := rfl
@[simp] theorem State.advance_mtvec (s : State) : (s.advance).mtvec = s.mtvec := rfl
@[simp] theorem State.advance_mscratch (s : State) : (s.advance).mscratch = s.mscratch := rfl
@[simp] theorem State.advance_mepc (s : State) : (s.advance).mepc = s.mepc := rfl
@[simp] theorem State.advance_mcause (s : State) : (s.advance).mcause = s.mcause := rfl
@[simp] theorem State.advance_mtval (s : State) : (s.advance).mtval = s.mtval := rfl
@[simp] theorem State.advance_mip (s : State) : (s.advance).mip = s.mip := rfl
@[simp] theorem State.advance_mcycle64 (s : State) : (s.advance).mcycle64 = s.mcycle64 := rfl
@[simp] theorem State.advance_imem (s : State) : (s.advance).imem = s.imem := rfl
@[simp] theorem State.advance_dmem (s : State) : (s.advance).dmem = s.dmem := rfl
@[simp] theorem State.advance_pipe (s : State) : (s.advance).pipe = s.pipe := rfl
@[simp] theorem State.advance_front (s : State) : (s.advance).front = s.front := rfl
@[simp] theorem State.advance_inputs (s : State) : (s.advance).inputs = s.inputs := rfl
@[simp] theorem State.advance_deviceReads (s : State) : (s.advance).deviceReads = s.deviceReads := rfl

/-! ### retire -/

@[simp] theorem State.retire_cfg (s : State) (i : RegIdx) (v : Word) : (s.retire i v).cfg = s.cfg := rfl
@[simp] theorem State.retire_pc (s : State) (i : RegIdx) (v : Word) : (s.retire i v).pc = s.pc + 4#32 := rfl
@[simp] theorem State.retire_regs (s : State) (i : RegIdx) (v : Word) : (s.retire i v).regs = regWrite s.regs i v := rfl
@[simp] theorem State.retire_mstatus (s : State) (i : RegIdx) (v : Word) : (s.retire i v).mstatus = s.mstatus := rfl
@[simp] theorem State.retire_mie (s : State) (i : RegIdx) (v : Word) : (s.retire i v).mie = s.mie := rfl
@[simp] theorem State.retire_mtvec (s : State) (i : RegIdx) (v : Word) : (s.retire i v).mtvec = s.mtvec := rfl
@[simp] theorem State.retire_mscratch (s : State) (i : RegIdx) (v : Word) : (s.retire i v).mscratch = s.mscratch := rfl
@[simp] theorem State.retire_mepc (s : State) (i : RegIdx) (v : Word) : (s.retire i v).mepc = s.mepc := rfl
@[simp] theorem State.retire_mcause (s : State) (i : RegIdx) (v : Word) : (s.retire i v).mcause = s.mcause := rfl
@[simp] theorem State.retire_mtval (s : State) (i : RegIdx) (v : Word) : (s.retire i v).mtval = s.mtval := rfl
@[simp] theorem State.retire_mip (s : State) (i : RegIdx) (v : Word) : (s.retire i v).mip = s.mip := rfl
@[simp] theorem State.retire_mcycle64 (s : State) (i : RegIdx) (v : Word) : (s.retire i v).mcycle64 = s.mcycle64 := rfl
@[simp] theorem State.retire_imem (s : State) (i : RegIdx) (v : Word) : (s.retire i v).imem = s.imem := rfl
@[simp] theorem State.retire_dmem (s : State) (i : RegIdx) (v : Word) : (s.retire i v).dmem = s.dmem := rfl
@[simp] theorem State.retire_pipe (s : State) (i : RegIdx) (v : Word) : (s.retire i v).pipe = s.pipe := rfl
@[simp] theorem State.retire_front (s : State) (i : RegIdx) (v : Word) : (s.retire i v).front = s.front := rfl
@[simp] theorem State.retire_inputs (s : State) (i : RegIdx) (v : Word) : (s.retire i v).inputs = s.inputs := rfl
@[simp] theorem State.retire_deviceReads (s : State) (i : RegIdx) (v : Word) : (s.retire i v).deviceReads = s.deviceReads := rfl

/-! ### linkTo -/

@[simp] theorem State.linkTo_cfg (s : State) (i : RegIdx) (t : Word) : (s.linkTo i t).cfg = s.cfg := rfl
@[simp] theorem State.linkTo_pc (s : State) (i : RegIdx) (t : Word) : (s.linkTo i t).pc = t := rfl
@[simp] theorem State.linkTo_regs (s : State) (i : RegIdx) (t : Word) : (s.linkTo i t).regs = regWrite s.regs i (s.pc + 4#32) := rfl
@[simp] theorem State.linkTo_mstatus (s : State) (i : RegIdx) (t : Word) : (s.linkTo i t).mstatus = s.mstatus := rfl
@[simp] theorem State.linkTo_mie (s : State) (i : RegIdx) (t : Word) : (s.linkTo i t).mie = s.mie := rfl
@[simp] theorem State.linkTo_mtvec (s : State) (i : RegIdx) (t : Word) : (s.linkTo i t).mtvec = s.mtvec := rfl
@[simp] theorem State.linkTo_mscratch (s : State) (i : RegIdx) (t : Word) : (s.linkTo i t).mscratch = s.mscratch := rfl
@[simp] theorem State.linkTo_mepc (s : State) (i : RegIdx) (t : Word) : (s.linkTo i t).mepc = s.mepc := rfl
@[simp] theorem State.linkTo_mcause (s : State) (i : RegIdx) (t : Word) : (s.linkTo i t).mcause = s.mcause := rfl
@[simp] theorem State.linkTo_mtval (s : State) (i : RegIdx) (t : Word) : (s.linkTo i t).mtval = s.mtval := rfl
@[simp] theorem State.linkTo_mip (s : State) (i : RegIdx) (t : Word) : (s.linkTo i t).mip = s.mip := rfl
@[simp] theorem State.linkTo_mcycle64 (s : State) (i : RegIdx) (t : Word) : (s.linkTo i t).mcycle64 = s.mcycle64 := rfl
@[simp] theorem State.linkTo_imem (s : State) (i : RegIdx) (t : Word) : (s.linkTo i t).imem = s.imem := rfl
@[simp] theorem State.linkTo_dmem (s : State) (i : RegIdx) (t : Word) : (s.linkTo i t).dmem = s.dmem := rfl
@[simp] theorem State.linkTo_pipe (s : State) (i : RegIdx) (t : Word) : (s.linkTo i t).pipe = s.pipe := rfl
@[simp] theorem State.linkTo_front (s : State) (i : RegIdx) (t : Word) : (s.linkTo i t).front = s.front := rfl
@[simp] theorem State.linkTo_inputs (s : State) (i : RegIdx) (t : Word) : (s.linkTo i t).inputs = s.inputs := rfl
@[simp] theorem State.linkTo_deviceReads (s : State) (i : RegIdx) (t : Word) : (s.linkTo i t).deviceReads = s.deviceReads := rfl

/-! ### takeTrap -/

@[simp] theorem State.takeTrap_cfg (s t : State) (c e : Word) : (s.takeTrap t c e).cfg = t.cfg := rfl
@[simp] theorem State.takeTrap_pc (s t : State) (c e : Word) : (s.takeTrap t c e).pc = s.mtvec := rfl
@[simp] theorem State.takeTrap_regs (s t : State) (c e : Word) : (s.takeTrap t c e).regs = t.regs := rfl
@[simp] theorem State.takeTrap_mstatus (s t : State) (c e : Word) : (s.takeTrap t c e).mstatus = mstatusOnEntry s.mstatus := rfl
@[simp] theorem State.takeTrap_mie (s t : State) (c e : Word) : (s.takeTrap t c e).mie = t.mie := rfl
@[simp] theorem State.takeTrap_mtvec (s t : State) (c e : Word) : (s.takeTrap t c e).mtvec = t.mtvec := rfl
@[simp] theorem State.takeTrap_mscratch (s t : State) (c e : Word) : (s.takeTrap t c e).mscratch = t.mscratch := rfl
@[simp] theorem State.takeTrap_mepc (s t : State) (c e : Word) : (s.takeTrap t c e).mepc = e := rfl
@[simp] theorem State.takeTrap_mcause (s t : State) (c e : Word) : (s.takeTrap t c e).mcause = c := rfl
@[simp] theorem State.takeTrap_mtval (s t : State) (c e : Word) : (s.takeTrap t c e).mtval = t.mtval := rfl
@[simp] theorem State.takeTrap_mip (s t : State) (c e : Word) : (s.takeTrap t c e).mip = t.mip := rfl
@[simp] theorem State.takeTrap_mcycle64 (s t : State) (c e : Word) : (s.takeTrap t c e).mcycle64 = t.mcycle64 := rfl
@[simp] theorem State.takeTrap_imem (s t : State) (c e : Word) : (s.takeTrap t c e).imem = t.imem := rfl
@[simp] theorem State.takeTrap_dmem (s t : State) (c e : Word) : (s.takeTrap t c e).dmem = t.dmem := rfl
@[simp] theorem State.takeTrap_pipe (s t : State) (c e : Word) : (s.takeTrap t c e).pipe = t.pipe := rfl
@[simp] theorem State.takeTrap_front (s t : State) (c e : Word) : (s.takeTrap t c e).front = t.front := rfl
@[simp] theorem State.takeTrap_inputs (s t : State) (c e : Word) : (s.takeTrap t c e).inputs = t.inputs := rfl
@[simp] theorem State.takeTrap_deviceReads (s t : State) (c e : Word) : (s.takeTrap t c e).deviceReads = t.deviceReads := rfl

/-! ### trapReturn -/

@[simp] theorem State.trapReturn_cfg (s : State) : (s.trapReturn).cfg = s.cfg := rfl
@[simp] theorem State.trapReturn_pc (s : State) : (s.trapReturn).pc = s.mepc := rfl
@[simp] theorem State.trapReturn_regs (s : State) : (s.trapReturn).regs = s.regs := rfl
@[simp] theorem State.trapReturn_mstatus (s : State) : (s.trapReturn).mstatus = mstatusOnReturn s.mstatus := rfl
@[simp] theorem State.trapReturn_mie (s : State) : (s.trapReturn).mie = s.mie := rfl
@[simp] theorem State.trapReturn_mtvec (s : State) : (s.trapReturn).mtvec = s.mtvec := rfl
@[simp] theorem State.trapReturn_mscratch (s : State) : (s.trapReturn).mscratch = s.mscratch := rfl
@[simp] theorem State.trapReturn_mepc (s : State) : (s.trapReturn).mepc = s.mepc := rfl
@[simp] theorem State.trapReturn_mcause (s : State) : (s.trapReturn).mcause = s.mcause := rfl
@[simp] theorem State.trapReturn_mtval (s : State) : (s.trapReturn).mtval = s.mtval := rfl
@[simp] theorem State.trapReturn_mip (s : State) : (s.trapReturn).mip = s.mip := rfl
@[simp] theorem State.trapReturn_mcycle64 (s : State) : (s.trapReturn).mcycle64 = s.mcycle64 := rfl
@[simp] theorem State.trapReturn_imem (s : State) : (s.trapReturn).imem = s.imem := rfl
@[simp] theorem State.trapReturn_dmem (s : State) : (s.trapReturn).dmem = s.dmem := rfl
@[simp] theorem State.trapReturn_pipe (s : State) : (s.trapReturn).pipe = s.pipe := rfl
@[simp] theorem State.trapReturn_front (s : State) : (s.trapReturn).front = s.front := rfl
@[simp] theorem State.trapReturn_inputs (s : State) : (s.trapReturn).inputs = s.inputs := rfl
@[simp] theorem State.trapReturn_deviceReads (s : State) : (s.trapReturn).deviceReads = s.deviceReads := rfl

/-! ### tick -/

@[simp] theorem State.tick_cfg (s : State) (inp : Inputs) : (s.tick inp).cfg = s.cfg := rfl
@[simp] theorem State.tick_pc (s : State) (inp : Inputs) : (s.tick inp).pc = s.pc := rfl
@[simp] theorem State.tick_regs (s : State) (inp : Inputs) : (s.tick inp).regs = s.regs := rfl
@[simp] theorem State.tick_mstatus (s : State) (inp : Inputs) : (s.tick inp).mstatus = s.mstatus := rfl
@[simp] theorem State.tick_mie (s : State) (inp : Inputs) : (s.tick inp).mie = s.mie := rfl
@[simp] theorem State.tick_mtvec (s : State) (inp : Inputs) : (s.tick inp).mtvec = s.mtvec := rfl
@[simp] theorem State.tick_mscratch (s : State) (inp : Inputs) : (s.tick inp).mscratch = s.mscratch := rfl
@[simp] theorem State.tick_mepc (s : State) (inp : Inputs) : (s.tick inp).mepc = s.mepc := rfl
@[simp] theorem State.tick_mcause (s : State) (inp : Inputs) : (s.tick inp).mcause = s.mcause := rfl
@[simp] theorem State.tick_mtval (s : State) (inp : Inputs) : (s.tick inp).mtval = s.mtval := rfl
@[simp] theorem State.tick_mip (s : State) (inp : Inputs) : (s.tick inp).mip = mipOf inp := rfl
@[simp] theorem State.tick_mcycle64 (s : State) (inp : Inputs) : (s.tick inp).mcycle64 = s.mcycle64 + 1#64 := rfl
@[simp] theorem State.tick_imem (s : State) (inp : Inputs) : (s.tick inp).imem = s.imem := rfl
@[simp] theorem State.tick_dmem (s : State) (inp : Inputs) : (s.tick inp).dmem = s.dmem := rfl
@[simp] theorem State.tick_pipe (s : State) (inp : Inputs) : (s.tick inp).pipe = s.pipe := rfl
@[simp] theorem State.tick_front (s : State) (inp : Inputs) : (s.tick inp).front = s.front := rfl
@[simp] theorem State.tick_inputs (s : State) (inp : Inputs) : (s.tick inp).inputs = s.inputs.tail := rfl
@[simp] theorem State.tick_deviceReads (s : State) (inp : Inputs) : (s.tick inp).deviceReads = s.deviceReads := rfl

/-! ### endCycle -/

@[simp] theorem State.endCycle_cfg (s : State) (inp : Inputs) (f : FrontEnd) : (s.endCycle inp f).cfg = s.cfg := rfl
@[simp] theorem State.endCycle_pc (s : State) (inp : Inputs) (f : FrontEnd) : (s.endCycle inp f).pc = s.pc := rfl
@[simp] theorem State.endCycle_regs (s : State) (inp : Inputs) (f : FrontEnd) : (s.endCycle inp f).regs = s.regs := rfl
@[simp] theorem State.endCycle_mstatus (s : State) (inp : Inputs) (f : FrontEnd) : (s.endCycle inp f).mstatus = s.mstatus := rfl
@[simp] theorem State.endCycle_mie (s : State) (inp : Inputs) (f : FrontEnd) : (s.endCycle inp f).mie = s.mie := rfl
@[simp] theorem State.endCycle_mtvec (s : State) (inp : Inputs) (f : FrontEnd) : (s.endCycle inp f).mtvec = s.mtvec := rfl
@[simp] theorem State.endCycle_mscratch (s : State) (inp : Inputs) (f : FrontEnd) : (s.endCycle inp f).mscratch = s.mscratch := rfl
@[simp] theorem State.endCycle_mepc (s : State) (inp : Inputs) (f : FrontEnd) : (s.endCycle inp f).mepc = s.mepc := rfl
@[simp] theorem State.endCycle_mcause (s : State) (inp : Inputs) (f : FrontEnd) : (s.endCycle inp f).mcause = s.mcause := rfl
@[simp] theorem State.endCycle_mtval (s : State) (inp : Inputs) (f : FrontEnd) : (s.endCycle inp f).mtval = s.mtval := rfl
@[simp] theorem State.endCycle_mip (s : State) (inp : Inputs) (f : FrontEnd) : (s.endCycle inp f).mip = mipOf inp := rfl
@[simp] theorem State.endCycle_mcycle64 (s : State) (inp : Inputs) (f : FrontEnd) : (s.endCycle inp f).mcycle64 = s.mcycle64 + 1#64 := rfl
@[simp] theorem State.endCycle_imem (s : State) (inp : Inputs) (f : FrontEnd) : (s.endCycle inp f).imem = s.imem := rfl
@[simp] theorem State.endCycle_dmem (s : State) (inp : Inputs) (f : FrontEnd) : (s.endCycle inp f).dmem = s.dmem := rfl
@[simp] theorem State.endCycle_pipe (s : State) (inp : Inputs) (f : FrontEnd) : (s.endCycle inp f).pipe = s.pipe := rfl
@[simp] theorem State.endCycle_front (s : State) (inp : Inputs) (f : FrontEnd) : (s.endCycle inp f).front = f := rfl
@[simp] theorem State.endCycle_inputs (s : State) (inp : Inputs) (f : FrontEnd) : (s.endCycle inp f).inputs = s.inputs.tail := rfl
@[simp] theorem State.endCycle_deviceReads (s : State) (inp : Inputs) (f : FrontEnd) : (s.endCycle inp f).deviceReads = s.deviceReads := rfl

/-! ### placeWord -/

@[simp] theorem State.placeWord_cfg (s : State) (p w : Word) : (s.placeWord p w).cfg = s.cfg := rfl
@[simp] theorem State.placeWord_pc (s : State) (p w : Word) : (s.placeWord p w).pc = s.pc := rfl
@[simp] theorem State.placeWord_regs (s : State) (p w : Word) : (s.placeWord p w).regs = s.regs := rfl
@[simp] theorem State.placeWord_mstatus (s : State) (p w : Word) : (s.placeWord p w).mstatus = s.mstatus := rfl
@[simp] theorem State.placeWord_mie (s : State) (p w : Word) : (s.placeWord p w).mie = s.mie := rfl
@[simp] theorem State.placeWord_mtvec (s : State) (p w : Word) : (s.placeWord p w).mtvec = s.mtvec := rfl
@[simp] theorem State.placeWord_mscratch (s : State) (p w : Word) : (s.placeWord p w).mscratch = s.mscratch := rfl
@[simp] theorem State.placeWord_mepc (s : State) (p w : Word) : (s.placeWord p w).mepc = s.mepc := rfl
@[simp] theorem State.placeWord_mcause (s : State) (p w : Word) : (s.placeWord p w).mcause = s.mcause := rfl
@[simp] theorem State.placeWord_mtval (s : State) (p w : Word) : (s.placeWord p w).mtval = s.mtval := rfl
@[simp] theorem State.placeWord_mip (s : State) (p w : Word) : (s.placeWord p w).mip = s.mip := rfl
@[simp] theorem State.placeWord_mcycle64 (s : State) (p w : Word) : (s.placeWord p w).mcycle64 = s.mcycle64 := rfl
@[simp] theorem State.placeWord_imem (s : State) (p w : Word) : (s.placeWord p w).imem = s.imem.writeLanes (wordAddr p) 0b1111#4 w := rfl
@[simp] theorem State.placeWord_dmem (s : State) (p w : Word) : (s.placeWord p w).dmem = s.dmem := rfl
@[simp] theorem State.placeWord_pipe (s : State) (p w : Word) : (s.placeWord p w).pipe = s.pipe := rfl
@[simp] theorem State.placeWord_front (s : State) (p w : Word) : (s.placeWord p w).front = s.front := rfl
@[simp] theorem State.placeWord_inputs (s : State) (p w : Word) : (s.placeWord p w).inputs = s.inputs := rfl
@[simp] theorem State.placeWord_deviceReads (s : State) (p w : Word) : (s.placeWord p w).deviceReads = s.deviceReads := rfl

/-! ### busWrite -/

@[simp] theorem State.busWrite_cfg (s : State) (a : Word) (b : BitVec 4) (d : Word) : (s.busWrite a b d).cfg = s.cfg :=
  by unfold State.busWrite; split <;> rfl
@[simp] theorem State.busWrite_pc (s : State) (a : Word) (b : BitVec 4) (d : Word) : (s.busWrite a b d).pc = s.pc :=
  by unfold State.busWrite; split <;> rfl
@[simp] theorem State.busWrite_regs (s : State) (a : Word) (b : BitVec 4) (d : Word) : (s.busWrite a b d).regs = s.regs :=
  by unfold State.busWrite; split <;> rfl
@[simp] theorem State.busWrite_mstatus (s : State) (a : Word) (b : BitVec 4) (d : Word) : (s.busWrite a b d).mstatus = s.mstatus :=
  by unfold State.busWrite; split <;> rfl
@[simp] theorem State.busWrite_mie (s : State) (a : Word) (b : BitVec 4) (d : Word) : (s.busWrite a b d).mie = s.mie :=
  by unfold State.busWrite; split <;> rfl
@[simp] theorem State.busWrite_mtvec (s : State) (a : Word) (b : BitVec 4) (d : Word) : (s.busWrite a b d).mtvec = s.mtvec :=
  by unfold State.busWrite; split <;> rfl
@[simp] theorem State.busWrite_mscratch (s : State) (a : Word) (b : BitVec 4) (d : Word) : (s.busWrite a b d).mscratch = s.mscratch :=
  by unfold State.busWrite; split <;> rfl
@[simp] theorem State.busWrite_mepc (s : State) (a : Word) (b : BitVec 4) (d : Word) : (s.busWrite a b d).mepc = s.mepc :=
  by unfold State.busWrite; split <;> rfl
@[simp] theorem State.busWrite_mcause (s : State) (a : Word) (b : BitVec 4) (d : Word) : (s.busWrite a b d).mcause = s.mcause :=
  by unfold State.busWrite; split <;> rfl
@[simp] theorem State.busWrite_mtval (s : State) (a : Word) (b : BitVec 4) (d : Word) : (s.busWrite a b d).mtval = s.mtval :=
  by unfold State.busWrite; split <;> rfl
@[simp] theorem State.busWrite_mip (s : State) (a : Word) (b : BitVec 4) (d : Word) : (s.busWrite a b d).mip = s.mip :=
  by unfold State.busWrite; split <;> rfl
@[simp] theorem State.busWrite_mcycle64 (s : State) (a : Word) (b : BitVec 4) (d : Word) : (s.busWrite a b d).mcycle64 = s.mcycle64 :=
  by unfold State.busWrite; split <;> rfl
@[simp] theorem State.busWrite_imem (s : State) (a : Word) (b : BitVec 4) (d : Word) : (s.busWrite a b d).imem = s.imem :=
  by unfold State.busWrite; split <;> rfl
@[simp] theorem State.busWrite_pipe (s : State) (a : Word) (b : BitVec 4) (d : Word) : (s.busWrite a b d).pipe = s.pipe :=
  by unfold State.busWrite; split <;> rfl
@[simp] theorem State.busWrite_front (s : State) (a : Word) (b : BitVec 4) (d : Word) : (s.busWrite a b d).front = s.front :=
  by unfold State.busWrite; split <;> rfl
@[simp] theorem State.busWrite_inputs (s : State) (a : Word) (b : BitVec 4) (d : Word) : (s.busWrite a b d).inputs = s.inputs :=
  by unfold State.busWrite; split <;> rfl
@[simp] theorem State.busWrite_deviceReads (s : State) (a : Word) (b : BitVec 4) (d : Word) : (s.busWrite a b d).deviceReads = s.deviceReads :=
  by unfold State.busWrite; split <;> rfl

/-! ### storeAt -/

@[simp] theorem State.storeAt_cfg (s : State) (f3 : BitVec 3) (a v : Word) : (s.storeAt f3 a v).cfg = s.cfg :=
  State.busWrite_cfg _ _ _ _
@[simp] theorem State.storeAt_pc (s : State) (f3 : BitVec 3) (a v : Word) : (s.storeAt f3 a v).pc = s.pc :=
  State.busWrite_pc _ _ _ _
@[simp] theorem State.storeAt_regs (s : State) (f3 : BitVec 3) (a v : Word) : (s.storeAt f3 a v).regs = s.regs :=
  State.busWrite_regs _ _ _ _
@[simp] theorem State.storeAt_mstatus (s : State) (f3 : BitVec 3) (a v : Word) : (s.storeAt f3 a v).mstatus = s.mstatus :=
  State.busWrite_mstatus _ _ _ _
@[simp] theorem State.storeAt_mie (s : State) (f3 : BitVec 3) (a v : Word) : (s.storeAt f3 a v).mie = s.mie :=
  State.busWrite_mie _ _ _ _
@[simp] theorem State.storeAt_mtvec (s : State) (f3 : BitVec 3) (a v : Word) : (s.storeAt f3 a v).mtvec = s.mtvec :=
  State.busWrite_mtvec _ _ _ _
@[simp] theorem State.storeAt_mscratch (s : State) (f3 : BitVec 3) (a v : Word) : (s.storeAt f3 a v).mscratch = s.mscratch :=
  State.busWrite_mscratch _ _ _ _
@[simp] theorem State.storeAt_mepc (s : State) (f3 : BitVec 3) (a v : Word) : (s.storeAt f3 a v).mepc = s.mepc :=
  State.busWrite_mepc _ _ _ _
@[simp] theorem State.storeAt_mcause (s : State) (f3 : BitVec 3) (a v : Word) : (s.storeAt f3 a v).mcause = s.mcause :=
  State.busWrite_mcause _ _ _ _
@[simp] theorem State.storeAt_mtval (s : State) (f3 : BitVec 3) (a v : Word) : (s.storeAt f3 a v).mtval = s.mtval :=
  State.busWrite_mtval _ _ _ _
@[simp] theorem State.storeAt_mip (s : State) (f3 : BitVec 3) (a v : Word) : (s.storeAt f3 a v).mip = s.mip :=
  State.busWrite_mip _ _ _ _
@[simp] theorem State.storeAt_mcycle64 (s : State) (f3 : BitVec 3) (a v : Word) : (s.storeAt f3 a v).mcycle64 = s.mcycle64 :=
  State.busWrite_mcycle64 _ _ _ _
@[simp] theorem State.storeAt_imem (s : State) (f3 : BitVec 3) (a v : Word) : (s.storeAt f3 a v).imem = s.imem :=
  State.busWrite_imem _ _ _ _
@[simp] theorem State.storeAt_pipe (s : State) (f3 : BitVec 3) (a v : Word) : (s.storeAt f3 a v).pipe = s.pipe :=
  State.busWrite_pipe _ _ _ _
@[simp] theorem State.storeAt_front (s : State) (f3 : BitVec 3) (a v : Word) : (s.storeAt f3 a v).front = s.front :=
  State.busWrite_front _ _ _ _
@[simp] theorem State.storeAt_inputs (s : State) (f3 : BitVec 3) (a v : Word) : (s.storeAt f3 a v).inputs = s.inputs :=
  State.busWrite_inputs _ _ _ _
@[simp] theorem State.storeAt_deviceReads (s : State) (f3 : BitVec 3) (a v : Word) : (s.storeAt f3 a v).deviceReads = s.deviceReads :=
  State.busWrite_deviceReads _ _ _ _

/-! ### afterBusRead -/

@[simp] theorem State.afterBusRead_cfg (s : State) (a : Word) : (s.afterBusRead a).cfg = s.cfg :=
  by unfold State.afterBusRead; split <;> rfl
@[simp] theorem State.afterBusRead_pc (s : State) (a : Word) : (s.afterBusRead a).pc = s.pc :=
  by unfold State.afterBusRead; split <;> rfl
@[simp] theorem State.afterBusRead_regs (s : State) (a : Word) : (s.afterBusRead a).regs = s.regs :=
  by unfold State.afterBusRead; split <;> rfl
@[simp] theorem State.afterBusRead_mstatus (s : State) (a : Word) : (s.afterBusRead a).mstatus = s.mstatus :=
  by unfold State.afterBusRead; split <;> rfl
@[simp] theorem State.afterBusRead_mie (s : State) (a : Word) : (s.afterBusRead a).mie = s.mie :=
  by unfold State.afterBusRead; split <;> rfl
@[simp] theorem State.afterBusRead_mtvec (s : State) (a : Word) : (s.afterBusRead a).mtvec = s.mtvec :=
  by unfold State.afterBusRead; split <;> rfl
@[simp] theorem State.afterBusRead_mscratch (s : State) (a : Word) : (s.afterBusRead a).mscratch = s.mscratch :=
  by unfold State.afterBusRead; split <;> rfl
@[simp] theorem State.afterBusRead_mepc (s : State) (a : Word) : (s.afterBusRead a).mepc = s.mepc :=
  by unfold State.afterBusRead; split <;> rfl
@[simp] theorem State.afterBusRead_mcause (s : State) (a : Word) : (s.afterBusRead a).mcause = s.mcause :=
  by unfold State.afterBusRead; split <;> rfl
@[simp] theorem State.afterBusRead_mtval (s : State) (a : Word) : (s.afterBusRead a).mtval = s.mtval :=
  by unfold State.afterBusRead; split <;> rfl
@[simp] theorem State.afterBusRead_mip (s : State) (a : Word) : (s.afterBusRead a).mip = s.mip :=
  by unfold State.afterBusRead; split <;> rfl
@[simp] theorem State.afterBusRead_mcycle64 (s : State) (a : Word) : (s.afterBusRead a).mcycle64 = s.mcycle64 :=
  by unfold State.afterBusRead; split <;> rfl
@[simp] theorem State.afterBusRead_imem (s : State) (a : Word) : (s.afterBusRead a).imem = s.imem :=
  by unfold State.afterBusRead; split <;> rfl
@[simp] theorem State.afterBusRead_dmem (s : State) (a : Word) : (s.afterBusRead a).dmem = s.dmem :=
  by unfold State.afterBusRead; split <;> rfl
@[simp] theorem State.afterBusRead_pipe (s : State) (a : Word) : (s.afterBusRead a).pipe = s.pipe :=
  by unfold State.afterBusRead; split <;> rfl
@[simp] theorem State.afterBusRead_front (s : State) (a : Word) : (s.afterBusRead a).front = s.front :=
  by unfold State.afterBusRead; split <;> rfl
@[simp] theorem State.afterBusRead_inputs (s : State) (a : Word) : (s.afterBusRead a).inputs = s.inputs :=
  by unfold State.afterBusRead; split <;> rfl

/-! ### setCsrReg -/

@[simp] theorem State.setCsrReg_cfg (s : State) (r : CsrReg) (v : Word) : (s.setCsrReg r v).cfg = s.cfg :=
  by cases r <;> rfl
@[simp] theorem State.setCsrReg_pc (s : State) (r : CsrReg) (v : Word) : (s.setCsrReg r v).pc = s.pc :=
  by cases r <;> rfl
@[simp] theorem State.setCsrReg_regs (s : State) (r : CsrReg) (v : Word) : (s.setCsrReg r v).regs = s.regs :=
  by cases r <;> rfl
@[simp] theorem State.setCsrReg_mip (s : State) (r : CsrReg) (v : Word) : (s.setCsrReg r v).mip = s.mip :=
  by cases r <;> rfl
@[simp] theorem State.setCsrReg_mcycle64 (s : State) (r : CsrReg) (v : Word) : (s.setCsrReg r v).mcycle64 = s.mcycle64 :=
  by cases r <;> rfl
@[simp] theorem State.setCsrReg_imem (s : State) (r : CsrReg) (v : Word) : (s.setCsrReg r v).imem = s.imem :=
  by cases r <;> rfl
@[simp] theorem State.setCsrReg_dmem (s : State) (r : CsrReg) (v : Word) : (s.setCsrReg r v).dmem = s.dmem :=
  by cases r <;> rfl
@[simp] theorem State.setCsrReg_pipe (s : State) (r : CsrReg) (v : Word) : (s.setCsrReg r v).pipe = s.pipe :=
  by cases r <;> rfl
@[simp] theorem State.setCsrReg_front (s : State) (r : CsrReg) (v : Word) : (s.setCsrReg r v).front = s.front :=
  by cases r <;> rfl
@[simp] theorem State.setCsrReg_inputs (s : State) (r : CsrReg) (v : Word) : (s.setCsrReg r v).inputs = s.inputs :=
  by cases r <;> rfl
@[simp] theorem State.setCsrReg_deviceReads (s : State) (r : CsrReg) (v : Word) : (s.setCsrReg r v).deviceReads = s.deviceReads :=
  by cases r <;> rfl

/-! ### csrWrite -/

@[simp] theorem State.csrWrite_cfg (s : State) (a : CsrAddr) (v : Word) : (s.csrWrite a v).cfg = s.cfg :=
  by unfold State.csrWrite; split <;> simp
@[simp] theorem State.csrWrite_pc (s : State) (a : CsrAddr) (v : Word) : (s.csrWrite a v).pc = s.pc :=
  by unfold State.csrWrite; split <;> simp
@[simp] theorem State.csrWrite_regs (s : State) (a : CsrAddr) (v : Word) : (s.csrWrite a v).regs = s.regs :=
  by unfold State.csrWrite; split <;> simp
@[simp] theorem State.csrWrite_mip (s : State) (a : CsrAddr) (v : Word) : (s.csrWrite a v).mip = s.mip :=
  by unfold State.csrWrite; split <;> simp
@[simp] theorem State.csrWrite_mcycle64 (s : State) (a : CsrAddr) (v : Word) : (s.csrWrite a v).mcycle64 = s.mcycle64 :=
  by unfold State.csrWrite; split <;> simp
@[simp] theorem State.csrWrite_imem (s : State) (a : CsrAddr) (v : Word) : (s.csrWrite a v).imem = s.imem :=
  by unfold State.csrWrite; split <;> simp
@[simp] theorem State.csrWrite_dmem (s : State) (a : CsrAddr) (v : Word) : (s.csrWrite a v).dmem = s.dmem :=
  by unfold State.csrWrite; split <;> simp
@[simp] theorem State.csrWrite_pipe (s : State) (a : CsrAddr) (v : Word) : (s.csrWrite a v).pipe = s.pipe :=
  by unfold State.csrWrite; split <;> simp
@[simp] theorem State.csrWrite_front (s : State) (a : CsrAddr) (v : Word) : (s.csrWrite a v).front = s.front :=
  by unfold State.csrWrite; split <;> simp
@[simp] theorem State.csrWrite_inputs (s : State) (a : CsrAddr) (v : Word) : (s.csrWrite a v).inputs = s.inputs :=
  by unfold State.csrWrite; split <;> simp
@[simp] theorem State.csrWrite_deviceReads (s : State) (a : CsrAddr) (v : Word) : (s.csrWrite a v).deviceReads = s.deviceReads :=
  by unfold State.csrWrite; split <;> simp

/-! ### csrModify -/

@[simp] theorem State.csrModify_cfg (s : State) (op : CsrOp) (rd : RegIdx) (a : CsrAddr) (v : Word) : (s.csrModify op rd a v).cfg = s.cfg :=
  by simp [State.csrModify]
@[simp] theorem State.csrModify_mip (s : State) (op : CsrOp) (rd : RegIdx) (a : CsrAddr) (v : Word) : (s.csrModify op rd a v).mip = s.mip :=
  by simp [State.csrModify]
@[simp] theorem State.csrModify_mcycle64 (s : State) (op : CsrOp) (rd : RegIdx) (a : CsrAddr) (v : Word) : (s.csrModify op rd a v).mcycle64 = s.mcycle64 :=
  by simp [State.csrModify]
@[simp] theorem State.csrModify_imem (s : State) (op : CsrOp) (rd : RegIdx) (a : CsrAddr) (v : Word) : (s.csrModify op rd a v).imem = s.imem :=
  by simp [State.csrModify]
@[simp] theorem State.csrModify_dmem (s : State) (op : CsrOp) (rd : RegIdx) (a : CsrAddr) (v : Word) : (s.csrModify op rd a v).dmem = s.dmem :=
  by simp [State.csrModify]
@[simp] theorem State.csrModify_pipe (s : State) (op : CsrOp) (rd : RegIdx) (a : CsrAddr) (v : Word) : (s.csrModify op rd a v).pipe = s.pipe :=
  by simp [State.csrModify]
@[simp] theorem State.csrModify_front (s : State) (op : CsrOp) (rd : RegIdx) (a : CsrAddr) (v : Word) : (s.csrModify op rd a v).front = s.front :=
  by simp [State.csrModify]
@[simp] theorem State.csrModify_inputs (s : State) (op : CsrOp) (rd : RegIdx) (a : CsrAddr) (v : Word) : (s.csrModify op rd a v).inputs = s.inputs :=
  by simp [State.csrModify]
@[simp] theorem State.csrModify_deviceReads (s : State) (op : CsrOp) (rd : RegIdx) (a : CsrAddr) (v : Word) : (s.csrModify op rd a v).deviceReads = s.deviceReads :=
  by simp [State.csrModify]

/-! ### commitWb -/

@[simp] theorem State.commitWb_cfg (s : State) (m : MemWb) : (s.commitWb m).cfg = s.cfg :=
  by unfold State.commitWb; split <;> rfl
@[simp] theorem State.commitWb_pc (s : State) (m : MemWb) : (s.commitWb m).pc = s.pc :=
  by unfold State.commitWb; split <;> rfl
@[simp] theorem State.commitWb_mstatus (s : State) (m : MemWb) : (s.commitWb m).mstatus = s.mstatus :=
  by unfold State.commitWb; split <;> rfl
@[simp] theorem State.commitWb_mie (s : State) (m : MemWb) : (s.commitWb m).mie = s.mie :=
  by unfold State.commitWb; split <;> rfl
@[simp] theorem State.commitWb_mtvec (s : State) (m : MemWb) : (s.commitWb m).mtvec = s.mtvec :=
  by unfold State.commitWb; split <;> rfl
@[simp] theorem State.commitWb_mscratch (s : State) (m : MemWb) : (s.commitWb m).mscratch = s.mscratch :=
  by unfold State.commitWb; split <;> rfl
@[simp] theorem State.commitWb_mepc (s : State) (m : MemWb) : (s.commitWb m).mepc = s.mepc :=
  by unfold State.commitWb; split <;> rfl
@[simp] theorem State.commitWb_mcause (s : State) (m : MemWb) : (s.commitWb m).mcause = s.mcause :=
  by unfold State.commitWb; split <;> rfl
@[simp] theorem State.commitWb_mtval (s : State) (m : MemWb) : (s.commitWb m).mtval = s.mtval :=
  by unfold State.commitWb; split <;> rfl
@[simp] theorem State.commitWb_mip (s : State) (m : MemWb) : (s.commitWb m).mip = s.mip :=
  by unfold State.commitWb; split <;> rfl
@[simp] theorem State.commitWb_mcycle64 (s : State) (m : MemWb) : (s.commitWb m).mcycle64 = s.mcycle64 :=
  by unfold State.commitWb; split <;> rfl
@[simp] theorem State.commitWb_imem (s : State) (m : MemWb) : (s.commitWb m).imem = s.imem :=
  by unfold State.commitWb; split <;> rfl
@[simp] theorem State.commitWb_dmem (s : State) (m : MemWb) : (s.commitWb m).dmem = s.dmem :=
  by unfold State.commitWb; split <;> rfl
@[simp] theorem State.commitWb_pipe (s : State) (m : MemWb) : (s.commitWb m).pipe = s.pipe :=
  by unfold State.commitWb; split <;> rfl
@[simp] theorem State.commitWb_front (s : State) (m : MemWb) : (s.commitWb m).front = s.front :=
  by unfold State.commitWb; split <;> rfl
@[simp] theorem State.commitWb_inputs (s : State) (m : MemWb) : (s.commitWb m).inputs = s.inputs :=
  by unfold State.commitWb; split <;> rfl
@[simp] theorem State.commitWb_deviceReads (s : State) (m : MemWb) : (s.commitWb m).deviceReads = s.deviceReads :=
  by unfold State.commitWb; split <;> rfl

/-! ### memEdge -/

@[simp] theorem State.memEdge_cfg (s : State) (x : ExMem) : (s.memEdge x).cfg = s.cfg :=
  by unfold State.memEdge; dsimp only; (repeat' split) <;> simp
@[simp] theorem State.memEdge_pc (s : State) (x : ExMem) : (s.memEdge x).pc = s.pc :=
  by unfold State.memEdge; dsimp only; (repeat' split) <;> simp
@[simp] theorem State.memEdge_regs (s : State) (x : ExMem) : (s.memEdge x).regs = s.regs :=
  by unfold State.memEdge; dsimp only; (repeat' split) <;> simp
@[simp] theorem State.memEdge_mstatus (s : State) (x : ExMem) : (s.memEdge x).mstatus = s.mstatus :=
  by unfold State.memEdge; dsimp only; (repeat' split) <;> simp
@[simp] theorem State.memEdge_mie (s : State) (x : ExMem) : (s.memEdge x).mie = s.mie :=
  by unfold State.memEdge; dsimp only; (repeat' split) <;> simp
@[simp] theorem State.memEdge_mtvec (s : State) (x : ExMem) : (s.memEdge x).mtvec = s.mtvec :=
  by unfold State.memEdge; dsimp only; (repeat' split) <;> simp
@[simp] theorem State.memEdge_mscratch (s : State) (x : ExMem) : (s.memEdge x).mscratch = s.mscratch :=
  by unfold State.memEdge; dsimp only; (repeat' split) <;> simp
@[simp] theorem State.memEdge_mepc (s : State) (x : ExMem) : (s.memEdge x).mepc = s.mepc :=
  by unfold State.memEdge; dsimp only; (repeat' split) <;> simp
@[simp] theorem State.memEdge_mcause (s : State) (x : ExMem) : (s.memEdge x).mcause = s.mcause :=
  by unfold State.memEdge; dsimp only; (repeat' split) <;> simp
@[simp] theorem State.memEdge_mtval (s : State) (x : ExMem) : (s.memEdge x).mtval = s.mtval :=
  by unfold State.memEdge; dsimp only; (repeat' split) <;> simp
@[simp] theorem State.memEdge_mip (s : State) (x : ExMem) : (s.memEdge x).mip = s.mip :=
  by unfold State.memEdge; dsimp only; (repeat' split) <;> simp
@[simp] theorem State.memEdge_mcycle64 (s : State) (x : ExMem) : (s.memEdge x).mcycle64 = s.mcycle64 :=
  by unfold State.memEdge; dsimp only; (repeat' split) <;> simp
@[simp] theorem State.memEdge_imem (s : State) (x : ExMem) : (s.memEdge x).imem = s.imem :=
  by unfold State.memEdge; dsimp only; (repeat' split) <;> simp
@[simp] theorem State.memEdge_pipe (s : State) (x : ExMem) : (s.memEdge x).pipe = s.pipe :=
  by unfold State.memEdge; dsimp only; (repeat' split) <;> simp
@[simp] theorem State.memEdge_front (s : State) (x : ExMem) : (s.memEdge x).front = s.front :=
  by unfold State.memEdge; dsimp only; (repeat' split) <;> simp
@[simp] theorem State.memEdge_inputs (s : State) (x : ExMem) : (s.memEdge x).inputs = s.inputs :=
  by unfold State.memEdge; dsimp only; (repeat' split) <;> simp

/-! ### CSR values and registers -/

@[simp] theorem State.csrModify_pc (s : State) (op : CsrOp) (rd : RegIdx) (a : CsrAddr) (v : Word) :
    (s.csrModify op rd a v).pc = s.pc + 4#32 := by simp [State.csrModify]
@[simp] theorem State.csrModify_regs (s : State) (op : CsrOp) (rd : RegIdx) (a : CsrAddr) (v : Word) :
    (s.csrModify op rd a v).regs = regWrite s.regs rd (s.csrRead a) := by simp [State.csrModify]

/-- A write to one of the seven CSRs gives that register the value and leaves the other six. -/
theorem State.csrReg_setCsrReg (s : State) (r q : CsrReg) (v : Word) :
    (s.setCsrReg r v).csrReg q = if q = r then v else s.csrReg q := by
  cases r <;> cases q <;> rfl

/-- Two states agree on the seven writable CSRs. -/
theorem State.csrReg_congr {s t : State} (h1 : t.mstatus = s.mstatus) (h2 : t.mie = s.mie) (h3 : t.mtvec = s.mtvec)
    (h4 : t.mscratch = s.mscratch) (h5 : t.mepc = s.mepc) (h6 : t.mcause = s.mcause) (h7 : t.mtval = s.mtval)
    (q : CsrReg) : t.csrReg q = s.csrReg q := by
  cases q <;> assumption

end Sys2Proof.Machine
end

