-- ==== Sys2Proof/Laws/Datapath.lean ====
section
/-! SUPPORT. The meanings of the 47 instructions and of the default arm are the datapath of the control vector (30_encoding.md R162,
41_control_transfer.md R250, 43_system_csr.md R312): what ties the instruction level to the cycle level. -/

namespace Sys2Proof.Machine

/-- The ALU result of the control vector (R414). -/
def State.dpAlu (s : State) (d : Decoded) : Word :=
  alu d.ctrl.aluOp (match d.ctrl.op1Sel with | .pc => s.pc | .reg => s.reg d.rs1)
    (match d.ctrl.op2Sel with | .imm => d.imm | .reg => s.reg d.rs2)
/-- The jump target of the control vector (R250). -/
def State.dpTarget (s : State) (d : Decoded) : Word :=
  if d.ctrl.jalr then jalrTarget (s.reg d.rs1) d.imm else s.pc + d.imm
/-- The new CSR value of the control vector (R312). -/
def State.dpCsrNew (s : State) (w : Word) (d : Decoded) : Word :=
  csrNew d.ctrl.csrOp (s.csrRead d.ctrl.csrAddr) (if d.ctrl.csrImm then uimmWord (rs1fOf w) else s.reg d.rs1)
/-- The write-back value of the control vector (R412). -/
def State.dpWb (s : State) (d : Decoded) : Word :=
  match d.ctrl.wbSel with
  | .alu => s.dpAlu d
  | .mem => if d.ctrl.memRead then loadExtract d.ctrl.funct3 (laneOf (s.dpAlu d)) (s.busRead (s.dpAlu d)) else 0#32
  | .pc4 => s.pc + 4#32
  | .csr => s.csrRead d.ctrl.csrAddr
/-- The CSR, memory and register effects of the control vector. -/
def State.dpBody (s : State) (w : Word) (d : Decoded) : State :=
  let s1 := if d.ctrl.csrWrite then s.csrWrite d.ctrl.csrAddr (s.dpCsrNew w d) else s
  let s2 := if d.ctrl.memRead then s1.afterBusRead (s.dpAlu d) else s1
  let s3 := if d.ctrl.memWrite then s2.storeAt d.ctrl.funct3 (s.dpAlu d) (s.reg d.rs2) else s2
  if d.ctrl.regWrite then s3.setReg d.rd (s.dpWb d) else s3
/-- What the datapath does with the decoded word on the instruction-level registers. -/
def State.dp (s : State) (w : Word) (d : Decoded) : Result :=
  if d.ctrl.memWrite && s.hitsText (s.dpAlu d) then .refused .storeIntoProgramText
  else .next (match d.ctrl.sys with
    | .ecall => s.takeTrap (s.dpBody w d) causeEnvCallM s.pc
    | .ebreak => s.takeTrap (s.dpBody w d) causeBreakpoint s.pc
    | .mret => (s.dpBody w d).trapReturn
    | .none => (s.dpBody w d).setPc (if s.jumps d then s.dpTarget d else s.pc + 4#32))

/-- What decode gives for a recognised word. -/
theorem decodeStage_of (w : Word) (i : Instr) (h : decodeWord w = .ok i) :
    decodeStage w = ⟨rs1Index w, rs2Index w, rdOf w, immOf i,
      { ctrlOf i with csrAddr := csrOf w, funct3 := funct3Of w }⟩ := by
  simp [decodeStage, immCtrl, h]

/-- The decoded rs1 index of a recognised word. -/
theorem rs1Index_of (w : Word) (h : opcodeOf w ≠ 0b0110111#7) : rs1Index w = rs1fOf w := by simp [rs1Index, h]

/-- Every word, recognised or not, has the effect of its control vector. -/
theorem execWord_eq_dp (w : Word) (s : State) : execWord w s = s.dp w (decodeStage w) := by
  unfold execWord
  cases h : decodeWord w with
  | error e => simp [decodeStage, immCtrl, h, State.dp, State.dpBody, State.jumps, execDefault, State.advance]
  | ok i =>
    have hs := shape_of_decodeWord h
    rw [decodeStage_of w i h]
    cases i
    all_goals simp only [Shape] at hs
    case ecall => simp [exec, execEcall, State.dp, State.dpBody, ctrlOf]
    case ebreak => simp [exec, execEbreak, State.dp, State.dpBody, ctrlOf]
    case mret => simp [exec, execMret, State.dp, State.dpBody, ctrlOf]
    case lui rd imm =>
      obtain ⟨ho, rfl, rfl⟩ := hs
      simp [exec, execLui, execOpImm, State.dp, State.dpBody, State.dpAlu, State.dpWb, State.jumps, ctrlOf, ctrlOpImm, immOf, rs1Index, ho,
        State.retire, State.advance]
    all_goals
      obtain ⟨ho, hs⟩ := hs
      rw [rs1Index_of w (by rw [ho]; decide)]
      simp [hs, exec, State.dp, State.dpBody, State.dpAlu, State.dpWb, State.dpCsrNew, State.dpTarget, State.jumps, ctrlOf, ctrlOpImm, ctrlOp, ctrlLoad, ctrlStore, ctrlCsr, ctrlBranch, immOf, rs2Index,
        State.retire, State.advance, execOpImm, execOp, execLoad, execStore, execBranch, execAuipc, execAddi, execSlti, execSltiu, execXori, execOri, execAndi, execSlli, execSrli, execSrai,
        execAdd, execSub, execSll, execSlt, execSltu, execXor, execSrl, execSra, execOr, execAnd, execJal, execJalr, execBeq, execBne, execBlt, execBge, execBltu, execBgeu,
        execLb, execLh, execLw, execLbu, execLhu, execSb, execSh, execSw, execCsrrw, execCsrrs, execCsrrc, execCsrrwi, execCsrrsi, execCsrrci, execFence, State.csrModify, State.ea, State.linkTo]
    all_goals split <;> rfl

end Sys2Proof.Machine
end

