-- ==== Sys2Proof/Laws/Registers.lean ====
section
/-! SUPPORT. The laws of the register file (10_state.md R30) and of the CSR file (R51 to R53): read after write, and the write back of a
pipeline entry. -/

namespace Sys2Proof.Machine

/-- The register file after the write back of an entry. -/
def wbRegs (rf : Vector Word 31) (m : MemWb) : Vector Word 31 := if m.we then regWrite rf m.rd m.wbVal else rf

/-- Read after write (R30): x0 reads 0, the written register reads the value, every other register is as before. -/
theorem regRead_regWrite (rf : Vector Word 31) (i j : RegIdx) (v : Word) :
    regRead (regWrite rf i v) j = if j = 0#5 then 0#32 else if j = i then v else regRead rf j := by
  unfold regRead regWrite
  by_cases hj : j = 0#5
  · simp [hj]
  · by_cases hi : i = 0#5
    · subst hi; simp [hj]
    · simp only [hj, hi, if_false]
      rw [Vector.getElem_set]
      by_cases h : j = i
      · subst h; simp
      · rw [if_neg h, if_neg]
        intro hh
        apply h
        have h1 : j.toNat ≠ 0 := fun h0 => hj (by apply BitVec.eq_of_toNat_eq; simpa using h0)
        have h2 : i.toNat ≠ 0 := fun h0 => hi (by apply BitVec.eq_of_toNat_eq; simpa using h0)
        apply BitVec.eq_of_toNat_eq; omega

/-- Every register after a write back. -/
theorem regRead_wbRegs (rf : Vector Word 31) (m : MemWb) (j : RegIdx) :
    regRead (wbRegs rf m) j =
      if j ≠ 0#5 ∧ m.valid = true ∧ m.regWrite = true ∧ m.rd = j then m.wbVal else regRead rf j := by
  unfold wbRegs MemWb.we
  by_cases hj : j = 0#5
  · subst hj; split <;> simp [regRead]
  · split
    · rename_i h
      simp at h
      rw [regRead_regWrite]
      simp [hj, h, eq_comm]
    · rename_i h
      rw [if_neg]
      rintro ⟨_, h1, h2, h3⟩
      apply h; simp [h1, h2, h3, hj]

/-- Giving a CSR the value that `csrLegal` names for an address: that address reads it, every other one reads as before. -/
theorem State.csrRead_setCsrReg (s : State) {a : CsrAddr} {v v' : Word} {r : CsrReg} (h : csrLegal a v = some (r, v'))
    (b : CsrAddr) : (s.setCsrReg r v').csrRead b = if b = a then v' else s.csrRead b := by
  unfold csrLegal at h
  split at h
  all_goals first | (cases h; done) | skip
  all_goals
    obtain ⟨rfl, rfl⟩ : _ ∧ _ := by simpa using h
    unfold State.csrRead State.setCsrReg
    split <;> simp_all

/-- What every CSR address reads after a CSR-instruction write (R53): the written one its legalised value, if it can be written;
every other one as before. -/
theorem State.csrRead_csrWrite (s : State) (a b : CsrAddr) (v : Word) :
    (s.csrWrite a v).csrRead b = if b = a then s.csrAfterWrite a v else s.csrRead b := by
  unfold State.csrWrite State.csrAfterWrite
  cases h : csrLegal a v with
  | none => by_cases hb : b = a <;> simp [hb]
  | some p => obtain ⟨r, v'⟩ := p; exact State.csrRead_setCsrReg s h b

/-- The access classes spelled out (R53): seven writable addresses, `mtvec` masked, every other address unchanged. -/
theorem State.csrAfterWrite_eq (s : State) (a : CsrAddr) (v : Word) :
    s.csrAfterWrite a v =
      if a ∈ [0x300#12, 0x304#12, 0x305#12, 0x340#12, 0x341#12, 0x342#12, 0x343#12] then
        (if a = 0x305#12 then v &&& 0xFFFFFFFC#32 else v)
      else s.csrRead a := by
  unfold State.csrAfterWrite csrLegal
  split
  · rename_i h
    split at h <;> simp_all
  · rename_i h
    split at h <;> simp_all

end Sys2Proof.Machine
end

