-- ==== Sys2Proof/Laws/Effects.lean ====
section
/-! SUPPORT. From the state an instruction answers to the terms of the statements: what a register write with a jump, a jump alone, a CSR
write, and a trap entry or return change and leave. -/

namespace Sys2Proof.Machine

/-- Two states with the same parameters, stored CSRs, `mip` and counter read the same at every CSR address. -/
theorem sameCsrs_of {s t : State} (h0 : t.cfg = s.cfg) (h : ∀ q, t.csrReg q = s.csrReg q) (h8 : t.mip = s.mip)
    (h9 : t.mcycle64 = s.mcycle64) : SameCsrs s t := by
  have k1 := h .mstatus
  have k2 := h .mie
  have k3 := h .mtvec
  have k4 := h .mscratch
  have k5 := h .mepc
  have k6 := h .mcause
  have k7 := h .mtval
  simp only [State.csrReg] at k1 k2 k3 k4 k5 k6 k7
  intro a
  simp only [State.csrRead, h0, h8, h9, k1, k2, k3, k4, k5, k6, k7]

/-- Every register after a register write. -/
theorem State.reg_setReg (s : State) (i j : RegIdx) (v : Word) :
    (s.setReg i v).reg j = if j = 0#5 then 0#32 else if j = i then v else s.reg j := regRead_regWrite s.regs i j v
/-- A jump changes no register. -/
@[simp] theorem State.reg_setPc (s : State) (t : Word) (j : RegIdx) : (s.setPc t).reg j = s.reg j := rfl
@[simp] theorem State.reg_zero (s : State) : s.reg 0#5 = 0#32 := rfl

/-- The common end of an instruction, as a register write and a jump. -/
theorem State.retire_eq (s : State) (rd : RegIdx) (v : Word) : s.retire rd v = (s.setReg rd v).setPc (s.pc + 4#32) := rfl

/-- An instruction that answers a register write and a PC. -/
theorem writesReg_of_setReg {s : State} {i : Instr} {next : Word} {rd : RegIdx} {v : Word}
    (h : exec i s = .next ((s.setReg rd v).setPc next)) : WritesReg i s next rd v := by
  refine ⟨_, h, rfl, ?_, ?_, ?_, fun a => rfl, fun a => rfl, rfl, rfl, rfl, rfl, rfl⟩
  · rw [State.reg_setPc, State.reg_setReg]; simp
  · intro r hr
    rw [State.reg_setPc, State.reg_setReg]
    by_cases h0 : r = 0#5
    · subst h0; simp
    · simp [h0, hr]
  · exact sameCsrs_of rfl (by intro q; cases q <;> rfl) rfl rfl

/-- An instruction that answers a PC alone. -/
theorem onlyJumps_of_setPc {s : State} {i : Instr} {next : Word} (h : exec i s = .next (s.setPc next)) :
    OnlyJumps i s next :=
  ⟨_, h, rfl, fun _ => rfl, sameCsrs_of rfl (by intro q; cases q <;> rfl) rfl rfl, fun _ => rfl, fun _ => rfl, rfl, rfl, rfl, rfl, rfl⟩

/-- Bits of `mstatus` after a trap entry. -/
theorem entryStatus_mstatusOnEntry (m : Word) : EntryStatus m (mstatusOnEntry m) := by
  refine ⟨?_, ?_, ?_⟩
  · simp [mstatusOnEntry]
  · simp [mstatusOnEntry]
  · intro k h3 h7
    by_cases hk : k < 32
    · unfold mstatusOnEntry
      interval_cases k <;> simp at h3 h7 ⊢
    · simp [BitVec.getLsbD_of_ge _ _ (Nat.le_of_not_lt hk)]

/-- Bits of `mstatus` after a trap return. -/
theorem returnStatus_mstatusOnReturn (m : Word) : ReturnStatus m (mstatusOnReturn m) := by
  refine ⟨?_, ?_, ?_⟩
  · simp [mstatusOnReturn]
  · simp [mstatusOnReturn]
  · intro k h3 h7
    by_cases hk : k < 32
    · unfold mstatusOnReturn
      interval_cases k <;> simp at h3 h7 ⊢
    · simp [BitVec.getLsbD_of_ge _ _ (Nat.le_of_not_lt hk)]

/-- A trap entry on top of a state. -/
theorem entersTrap_takeTrap (s t : State) (cause epc : Word) : EntersTrap s t (s.takeTrap t cause epc) cause epc := by
  refine ⟨rfl, rfl, rfl, entryStatus_mstatusOnEntry s.mstatus, ?_, fun _ => rfl, fun _ => rfl, fun _ => rfl, rfl⟩
  intro a h1 h2 h3
  unfold State.csrRead
  split <;> first | rfl | contradiction

end Sys2Proof.Machine
end

