-- ==== Sys2Proof/Laws/Memory.lean ====
section
/-! SUPPORT. The laws of memory (20_memory.md R104, R105): read after write, every write keeps the canonical form, a write leaves every
other byte alone, and the word and lane forms of these. -/

namespace Sys2Proof.Machine

/-- Below the first listed address nothing is listed. -/
theorem Memory.read_of_lt {m : Memory} {a : Nat} (h : ∀ c ∈ m, a < c.1) : m.read a = blankByte := by
  induction m with
  | nil => rfl
  | cons c m ih =>
    obtain ⟨k, b⟩ := c
    have hk : a < k := h _ List.mem_cons_self
    have : k ≠ a := by omega
    simp only [Memory.read, this, if_false]
    exact ih fun c hc => h c (List.mem_cons_of_mem _ hc)

/-- The entries of a written memory: old ones, or the written one, which is not the blank byte. -/
theorem Memory.mem_write {m : Memory} {a : Nat} {b : Byte} {c : Host.Cell} (h : c ∈ m.write a b) :
    c ∈ m ∨ (c = (a, b) ∧ b ≠ blankByte) := by
  induction m with
  | nil => unfold Memory.write at h; split at h <;> simp_all
  | cons e m ih =>
    obtain ⟨k, d⟩ := e
    unfold Memory.write at h
    split at h
    · split at h <;> simp_all
      tauto
    · split at h
      · split at h <;> simp_all
        tauto
      · rcases List.mem_cons.mp h with h | h
        · exact .inl (h ▸ List.mem_cons_self)
        · rcases ih h with h | h
          · exact .inl (List.mem_cons_of_mem _ h)
          · exact .inr h

/-- A write keeps the canonical form. -/
theorem Memory.write_wf {m : Memory} (h : m.wf) {a : Nat} (ha : a < 2 ^ 32) (b : Byte) : (m.write a b).wf := by
  refine ⟨?_, ?_⟩
  · have hp := h.1
    clear h
    induction m with
    | nil => unfold Memory.write; split <;> simp
    | cons e m ih =>
      obtain ⟨k, d⟩ := e
      obtain ⟨h1, h2⟩ := List.pairwise_cons.mp hp
      unfold Memory.write
      split
      · rename_i hk
        split
        · exact hp
        · refine List.pairwise_cons.mpr ⟨?_, hp⟩
          intro c hc
          rcases List.mem_cons.mp hc with rfl | hc
          · exact hk
          · exact Nat.lt_trans hk (h1 c hc)
      · split
        · rename_i h3 h4
          split
          · exact h2
          · subst h4; exact List.pairwise_cons.mpr ⟨fun c hc => h1 c hc, h2⟩
        · rename_i h3 h4
          refine List.pairwise_cons.mpr ⟨?_, ih h2⟩
          intro c hc
          rcases Memory.mem_write hc with hc | ⟨rfl, -⟩
          · exact h1 c hc
          · show k < a; omega
  · intro c hc
    rcases Memory.mem_write hc with hc | ⟨rfl, hb⟩
    · exact h.2 c hc
    · exact ⟨hb, ha⟩

/-- Read after write. -/
theorem Memory.read_write {m : Memory} (h : m.wf) (a : Nat) (b : Byte) (x : Nat) :
    (m.write a b).read x = if x = a then b else m.read x := by
  have hp := h.1
  clear h
  induction m with
  | nil =>
    unfold Memory.write
    split
    · by_cases hx : x = a <;> simp [Memory.read, *]
    · by_cases hx : a = x
      · simp [Memory.read, hx]
      · simp [Memory.read, hx, Ne.symm hx]
  | cons e m ih =>
    obtain ⟨k, d⟩ := e
    obtain ⟨h1, h2⟩ := List.pairwise_cons.mp hp
    have hm : ∀ y, y ≤ k → Memory.read m y = blankByte := fun y hy =>
      Memory.read_of_lt fun c hc => Nat.lt_of_le_of_lt hy (h1 c hc)
    unfold Memory.write
    split
    · rename_i hk
      split
      · rename_i hb
        by_cases hx : x = a
        · subst hx
          have : k ≠ x := by omega
          simp [Memory.read, this, hm x (by omega), hb]
        · simp [hx]
      · by_cases hx : x = a
        · subst hx; simp [Memory.read]
        · simp [Memory.read, hx, Ne.symm hx]
    · split
      · rename_i h3 h4
        subst h4
        split
        · rename_i hb
          by_cases hx : x = a
          · subst hx; simp [hm x (Nat.le_refl _), hb]
          · simp [Memory.read, hx, Ne.symm hx]
        · by_cases hx : x = a
          · subst hx; simp [Memory.read]
          · simp [Memory.read, hx, Ne.symm hx]
      · rename_i h3 h4
        simp only [Memory.read]
        rw [ih h2]
        by_cases hk : k = x
        · subst hk; simp [Ne.symm h4]
        · simp [hk]

/-- A lane address is an address of the 32-bit space. -/
theorem laneAddr_lt (w : WordAddr) {k : Nat} (hk : k < 4) : laneAddr w k < 2 ^ 32 := by
  unfold laneAddr; have := w.isLt; omega

/-- A lane write keeps the canonical form. -/
theorem Memory.writeLane_wf {m : Memory} (h : m.wf) (w : WordAddr) (st : BitVec 4) (d : Word) {k : Nat} (hk : k < 4) :
    (m.writeLane w st d k).wf := by
  unfold Memory.writeLane
  split
  · exact Memory.write_wf h (laneAddr_lt w hk) _
  · exact h

/-- A bus write keeps the canonical form. -/
theorem Memory.writeLanes_wf {m : Memory} (h : m.wf) (w : WordAddr) (st : BitVec 4) (d : Word) : (m.writeLanes w st d).wf := by
  unfold Memory.writeLanes
  exact writeLane_wf (writeLane_wf (writeLane_wf (writeLane_wf h _ _ _ (by omega)) _ _ _ (by omega)) _ _ _ (by omega)) _ _ _ (by omega)

/-- Every byte after a lane write. -/
theorem Memory.read_writeLane {m : Memory} (h : m.wf) (w : WordAddr) (st : BitVec 4) (d : Word) (k x : Nat) :
    (m.writeLane w st d k).read x = if x = laneAddr w k ∧ st.getLsbD k = true then byteLane d k else m.read x := by
  unfold Memory.writeLane
  cases hs : st.getLsbD k
  · simp
  · simp [Memory.read_write h]

/-- What a bus write leaves at every byte address (R104): the strobed lanes of the word hold the data, every other byte is as before. -/
theorem Memory.read_writeLanes {m : Memory} (h : m.wf) (w : WordAddr) (st : BitVec 4) (d : Word) (x : Nat) :
    (m.writeLanes w st d).read x =
      if x / 4 = w.toNat ∧ st.getLsbD (x % 4) = true then byteLane d (x % 4) else m.read x := by
  have w0 := Memory.writeLane_wf h w st d (k := 0) (by omega)
  have w1 := Memory.writeLane_wf w0 w st d (k := 1) (by omega)
  have w2 := Memory.writeLane_wf w1 w st d (k := 2) (by omega)
  unfold Memory.writeLanes
  rw [Memory.read_writeLane w2, Memory.read_writeLane w1, Memory.read_writeLane w0, Memory.read_writeLane h]
  unfold laneAddr
  by_cases hx : x / 4 = w.toNat
  · have hc : x % 4 = 0 ∨ x % 4 = 1 ∨ x % 4 = 2 ∨ x % 4 = 3 := by omega
    rcases hc with hc | hc | hc | hc
    · have e : x = 4 * w.toNat + 0 := by omega
      subst e; simp
    · have e : x = 4 * w.toNat + 1 := by omega
      subst e; simp [hx]
    · have e : x = 4 * w.toNat + 2 := by omega
      subst e; simp [hx]
    · have e : x = 4 * w.toNat + 3 := by omega
      subst e; simp [hx]
  · have e0 : x ≠ 4 * w.toNat := by omega
    have e1 : x ≠ 4 * w.toNat + 1 := by omega
    have e2 : x ≠ 4 * w.toNat + 2 := by omega
    have e3 : x ≠ 4 * w.toNat + 3 := by omega
    simp [hx, e0, e1, e2, e3]

/-- A byte lane of a word read is the byte at that lane's address (R105). -/
theorem byteLane_readWord (m : Memory) (w : WordAddr) {k : Nat} (hk : k < 4) :
    byteLane (m.readWord w) k = m.read (laneAddr w k) := by
  unfold Memory.readWord byteLane wordOfBytes
  have : k = 0 ∨ k = 1 ∨ k = 2 ∨ k = 3 := by omega
  rcases this with rfl | rfl | rfl | rfl <;> (apply BitVec.eq_of_getElem_eq; intro i hi) <;>
    simp <;> grind

/-- The word read back after a bus write to it: the strobed lanes are the data's, the others are as before (R104). -/
theorem byteLane_readWord_writeLanes {m : Memory} (h : m.wf) (w : WordAddr) (st : BitVec 4) (d : Word) {k : Nat} (hk : k < 4) :
    byteLane ((m.writeLanes w st d).readWord w) k =
      if st.getLsbD k = true then byteLane d k else byteLane (m.readWord w) k := by
  rw [byteLane_readWord _ _ hk, byteLane_readWord _ _ hk, Memory.read_writeLanes h]
  have h1 : laneAddr w k / 4 = w.toNat := by unfold laneAddr; omega
  have h2 : laneAddr w k % 4 = k := by unfold laneAddr; omega
  simp [h1, h2]

/-- A bus write leaves every other word alone (R104). -/
theorem readWord_writeLanes_other {m : Memory} (h : m.wf) {w v : WordAddr} (hv : v ≠ w) (st : BitVec 4) (d : Word) :
    (m.writeLanes w st d).readWord v = m.readWord v := by
  have hn : v.toNat ≠ w.toNat := fun e => hv (BitVec.eq_of_toNat_eq e)
  have key : ∀ k, k < 4 → (m.writeLanes w st d).read (laneAddr v k) = m.read (laneAddr v k) := by
    intro k hk
    rw [Memory.read_writeLanes h]
    have : laneAddr v k / 4 = v.toNat := by unfold laneAddr; omega
    simp [this, hn]
  unfold Memory.readWord
  rw [key 0 (by omega), key 1 (by omega), key 2 (by omega), key 3 (by omega)]

end Sys2Proof.Machine
end

