-- ==== Sys2Proof/Laws/Settle.lean ====
section
/-! SUPPORT. What the bus transaction and the write back of a pipeline entry depend on, and what `State.settle` leaves in every field. -/

namespace Sys2Proof.Machine

theorem State.commitWb_regs (s : State) (m : MemWb) : (s.commitWb m).regs = wbRegs s.regs m := by
  unfold State.commitWb wbRegs; split <;> rfl

theorem State.target_congr {s t : State} (h : t.cfg = s.cfg) (a : Word) : t.target a = s.target a := by
  simp [State.target, h]
theorem State.busRead_congr {s t : State} (hc : t.cfg = s.cfg) (hd : t.dmem = s.dmem) (hi : t.imem = s.imem)
    (hn : t.deviceReads = s.deviceReads) (a : Word) : t.busRead a = s.busRead a := by
  simp [State.busRead, State.target, hc, hd, hi, hn]
theorem State.hitsText_congr {s t : State} (h : t.cfg = s.cfg) (a : Word) : t.hitsText a = s.hitsText a := by
  simp [State.hitsText, State.target, h]
theorem State.afterBusRead_deviceReads (s : State) (a : Word) :
    (s.afterBusRead a).deviceReads = match s.target a with | .device => s.deviceReads + 1 | _ => s.deviceReads := by
  unfold State.afterBusRead; split <;> simp_all
theorem State.busWrite_dmem (s : State) (a : Word) (st : BitVec 4) (d : Word) :
    (s.busWrite a st d).dmem = match s.target a with | .ram w => s.dmem.writeLanes w st d | _ => s.dmem := by
  unfold State.busWrite; split <;> simp_all

/-- The data memory after the transaction of an entry. -/
theorem State.memEdge_dmem (s : State) (x : ExMem) :
    (s.memEdge x).dmem = if x.we then (s.storeAt x.funct3 x.aluResult x.storeData).dmem else s.dmem := by
  unfold State.memEdge
  dsimp only
  split <;> split <;> simp [State.storeAt, State.busWrite_dmem, State.target]
theorem State.memEdge_deviceReads (s : State) (x : ExMem) :
    (s.memEdge x).deviceReads = if x.re then (s.afterBusRead x.aluResult).deviceReads else s.deviceReads := by
  unfold State.memEdge
  dsimp only
  split <;> split <;> simp [State.storeAt]
theorem State.storeAt_dmem_congr {s t : State} (hc : t.cfg = s.cfg) (hd : t.dmem = s.dmem) (f : BitVec 3) (a v : Word) :
    (t.storeAt f a v).dmem = (s.storeAt f a v).dmem := by
  simp [State.storeAt, State.busWrite_dmem, State.target, hc, hd]
theorem State.afterBusRead_deviceReads_congr {s t : State} (hc : t.cfg = s.cfg) (hd : t.deviceReads = s.deviceReads) (a : Word) :
    (t.afterBusRead a).deviceReads = (s.afterBusRead a).deviceReads := by
  simp [State.afterBusRead_deviceReads, State.target, hc, hd]
theorem State.memData_congr {s t : State} (hc : t.cfg = s.cfg) (hd : t.dmem = s.dmem) (hi : t.imem = s.imem)
    (hn : t.deviceReads = s.deviceReads) (x : ExMem) : t.memData x = s.memData x := by
  simp [State.memData, State.busRead_congr hc hd hi hn]
theorem State.toMemWb_congr {s t : State} (hc : t.cfg = s.cfg) (hd : t.dmem = s.dmem) (hi : t.imem = s.imem)
    (hn : t.deviceReads = s.deviceReads) (x : ExMem) : t.toMemWb x = s.toMemWb x := by
  simp [State.toMemWb, State.memData_congr hc hd hi hn]

section settle
variable (s : State)
theorem State.settle_regs : s.settle.regs = wbRegs (wbRegs s.regs s.pipe.memWb) (s.toMemWb s.pipe.exMem) := by
  simp only [State.settle, State.commitWb_regs, State.memEdge_regs]
  rw [State.toMemWb_congr (s := s)] <;> simp
theorem State.settle_dmem : s.settle.dmem = (s.memEdge s.pipe.exMem).dmem := by
  simp only [State.settle, State.commitWb_dmem, State.memEdge_dmem]
  split
  · apply State.storeAt_dmem_congr <;> simp
  · simp
theorem State.settle_deviceReads : s.settle.deviceReads = (s.memEdge s.pipe.exMem).deviceReads := by
  simp only [State.settle, State.commitWb_deviceReads, State.memEdge_deviceReads]
  split
  · apply State.afterBusRead_deviceReads_congr <;> simp
  · simp
@[simp] theorem State.settle_cfg : s.settle.cfg = s.cfg := by simp [State.settle]
@[simp] theorem State.settle_pc : s.settle.pc = s.oldestPc := by simp [State.settle]
@[simp] theorem State.settle_mstatus : s.settle.mstatus = s.mstatus := by simp [State.settle]
@[simp] theorem State.settle_mie : s.settle.mie = s.mie := by simp [State.settle]
@[simp] theorem State.settle_mtvec : s.settle.mtvec = s.mtvec := by simp [State.settle]
@[simp] theorem State.settle_mscratch : s.settle.mscratch = s.mscratch := by simp [State.settle]
@[simp] theorem State.settle_mepc : s.settle.mepc = s.mepc := by simp [State.settle]
@[simp] theorem State.settle_mcause : s.settle.mcause = s.mcause := by simp [State.settle]
@[simp] theorem State.settle_mtval : s.settle.mtval = s.mtval := by simp [State.settle]
@[simp] theorem State.settle_mip : s.settle.mip = s.mip := by simp [State.settle]
@[simp] theorem State.settle_mcycle64 : s.settle.mcycle64 = s.mcycle64 := by simp [State.settle]
@[simp] theorem State.settle_imem : s.settle.imem = s.imem := by simp [State.settle]
@[simp] theorem State.settle_pipe : s.settle.pipe = {} := by simp [State.settle]
@[simp] theorem State.settle_front : s.settle.front =
    { inId := s.front.inId || s.pipe.ifId.valid, inEx := s.front.inEx || s.pipe.idEx.valid } := by simp [State.settle]
@[simp] theorem State.settle_inputs : s.settle.inputs = s.inputs := by simp [State.settle]
end settle

end Sys2Proof.Machine
end

