-- ==== Sys2Proof/Laws/Lanes.lean ====
section
/-! SUPPORT. The lanes of a store and of a load (20_memory.md R108 to R112): which bytes a strobe selects, what they hold, and what a load
of the same lane takes back. -/

namespace Sys2Proof.Machine

theorem laneOf_toNat (ea : Word) : (laneOf ea).toNat = ea.toNat % 4 := by
  show (ea.extractLsb' 0 2).toNat = _
  rw [BitVec.extractLsb'_toNat]; simp
theorem laneOf_bit1 (ea : Word) : (laneOf ea).getLsbD 1 = ea.getLsbD 1 := by simp [laneOf]
theorem lane_cases : ∀ l : BitVec 2, l = 0#2 ∨ l = 1#2 ∨ l = 2#2 ∨ l = 3#2 := by decide

/-- The word address and the lane of a byte address (R103, R108). -/
theorem toNat_wordAddr (ea : Word) : (wordAddr ea).toNat = ea.toNat / 4 := by
  show (ea.extractLsb' 2 30).toNat = _
  rw [BitVec.extractLsb'_toNat]
  have := ea.isLt
  simp [Nat.shiftRight_eq_div_pow]; omega

theorem strobe_sb : ∀ (l : BitVec 2) (k : Fin 4), (storeStrobe 0b000#3 l).getLsbD k = decide (k.val = l.toNat) := by decide
theorem strobe_sh : ∀ (l : BitVec 2) (k : Fin 4), (storeStrobe 0b001#3 l).getLsbD k = decide (k.val / 2 = l.toNat / 2) := by
  decide
theorem strobe_sw : ∀ (l : BitVec 2) (k : Fin 4), (storeStrobe 0b010#3 l).getLsbD k = true := by decide

theorem data_sb (l : BitVec 2) (v : Word) : byteLane (storeData 0b000#3 l v) l.toNat = v.extractLsb' 0 8 := by
  rcases lane_cases l with rfl | rfl | rfl | rfl <;> (apply BitVec.eq_of_getLsbD_eq; intro k hk; interval_cases k) <;>
    simp [storeData, byteLane]
theorem data_sh_low (l : BitVec 2) (v : Word) : byteLane (storeData 0b001#3 l v) (l.toNat / 2 * 2) = v.extractLsb' 0 8 := by
  rcases lane_cases l with rfl | rfl | rfl | rfl <;> (apply BitVec.eq_of_getLsbD_eq; intro k hk; interval_cases k) <;>
    simp [storeData, byteLane]
theorem data_sh_high (l : BitVec 2) (v : Word) : byteLane (storeData 0b001#3 l v) (l.toNat / 2 * 2 + 1) = v.extractLsb' 8 8 := by
  rcases lane_cases l with rfl | rfl | rfl | rfl <;> (apply BitVec.eq_of_getLsbD_eq; intro k hk; interval_cases k) <;>
    simp [storeData, byteLane]

/-- What a store leaves at every byte address (R104): the strobed lanes of the word its address reaches. -/
theorem State.storeAt_read {s : State} (hw : s.dmem.wf) (f3 : BitVec 3) (ea v : Word) (a : Nat) :
    (s.storeAt f3 ea v).dmem.read a =
      match s.target ea with
      | .ram w =>
        if a / 4 = w.toNat ∧ (storeStrobe f3 (laneOf ea)).getLsbD (a % 4) = true then
          byteLane (storeData f3 (laneOf ea) v) (a % 4)
        else s.dmem.read a
      | _ => s.dmem.read a := by
  unfold State.storeAt
  rw [State.busWrite_dmem]
  cases s.target ea <;> simp [Memory.read_writeLanes hw]

/-- A store keeps the canonical form. -/
theorem State.storeAt_wf {s : State} (hw : s.dmem.wf) (f3 : BitVec 3) (ea v : Word) : (s.storeAt f3 ea v).dmem.wf := by
  unfold State.storeAt
  rw [State.busWrite_dmem]
  cases s.target ea <;> first | exact hw | exact Memory.writeLanes_wf hw _ _ _

end Sys2Proof.Machine
end

