-- ==== Sys2Proof/Laws/PerInstr.lean ====
section
/-! SUPPORT. Per instruction: the encoder's word matches the instruction's row of the opcode table (30_encoding.md R169, R170). -/

namespace Sys2Proof.Laws.TableRow

/-- The word of the instruction matches its row. -/
def Statement (i : Instr) : Prop := rowMatches (tableRow i) (encodeWord i) = true

/-- A word whose opcode is the row's, for a row that fixes the opcode. -/
theorem of_op {w c : Word} (hc : c &&& 0x0000007F#32 = c) (h : opcodeOf w = opcodeOf c) :
    rowMatches (0x0000007F#32, c) w = true := by
  simpa [rowMatches] using (masked_op hc).mpr h
theorem of_op_f3 {w c : Word} (hc : c &&& 0x0000707F#32 = c) (h : opcodeOf w = opcodeOf c) (h3 : funct3Of w = funct3Of c) :
    rowMatches (0x0000707F#32, c) w = true := by
  simpa [rowMatches] using (masked_op_f3 hc).mpr ⟨h, h3⟩
theorem of_op_f3_f7 {w c : Word} (hc : c &&& 0xFE00707F#32 = c) (h : opcodeOf w = opcodeOf c) (h3 : funct3Of w = funct3Of c)
    (h7 : funct7Of w = funct7Of c) : rowMatches (0xFE00707F#32, c) w = true := by
  simpa [rowMatches] using (masked_op_f3_f7 hc).mpr ⟨h, h3, h7⟩

theorem lui (rd : RegIdx) (imm20 : BitVec 20) : Statement (.lui rd imm20) :=
  of_op (by decide) ((opcode_uType ..).trans (by decide))
theorem auipc (rd : RegIdx) (imm20 : BitVec 20) : Statement (.auipc rd imm20) :=
  of_op (by decide) ((opcode_uType ..).trans (by decide))
theorem addi (rd rs1 : RegIdx) (imm : BitVec 12) : Statement (.addi rd rs1 imm) :=
  of_op_f3 (by decide) ((opcode_iType ..).trans (by decide)) ((funct3_iType ..).trans (by decide))
theorem slti (rd rs1 : RegIdx) (imm : BitVec 12) : Statement (.slti rd rs1 imm) :=
  of_op_f3 (by decide) ((opcode_iType ..).trans (by decide)) ((funct3_iType ..).trans (by decide))
theorem sltiu (rd rs1 : RegIdx) (imm : BitVec 12) : Statement (.sltiu rd rs1 imm) :=
  of_op_f3 (by decide) ((opcode_iType ..).trans (by decide)) ((funct3_iType ..).trans (by decide))
theorem xori (rd rs1 : RegIdx) (imm : BitVec 12) : Statement (.xori rd rs1 imm) :=
  of_op_f3 (by decide) ((opcode_iType ..).trans (by decide)) ((funct3_iType ..).trans (by decide))
theorem ori (rd rs1 : RegIdx) (imm : BitVec 12) : Statement (.ori rd rs1 imm) :=
  of_op_f3 (by decide) ((opcode_iType ..).trans (by decide)) ((funct3_iType ..).trans (by decide))
theorem andi (rd rs1 : RegIdx) (imm : BitVec 12) : Statement (.andi rd rs1 imm) :=
  of_op_f3 (by decide) ((opcode_iType ..).trans (by decide)) ((funct3_iType ..).trans (by decide))
theorem slli (rd rs1 : RegIdx) (shamt : BitVec 5) : Statement (.slli rd rs1 shamt) :=
  of_op_f3_f7 (by decide) ((opcode_rType ..).trans (by decide)) ((funct3_rType ..).trans (by decide)) ((funct7_rType ..).trans (by decide))
theorem srli (rd rs1 : RegIdx) (shamt : BitVec 5) : Statement (.srli rd rs1 shamt) :=
  of_op_f3_f7 (by decide) ((opcode_rType ..).trans (by decide)) ((funct3_rType ..).trans (by decide)) ((funct7_rType ..).trans (by decide))
theorem srai (rd rs1 : RegIdx) (shamt : BitVec 5) : Statement (.srai rd rs1 shamt) :=
  of_op_f3_f7 (by decide) ((opcode_rType ..).trans (by decide)) ((funct3_rType ..).trans (by decide)) ((funct7_rType ..).trans (by decide))
theorem add (rd rs1 rs2 : RegIdx) : Statement (.add rd rs1 rs2) :=
  of_op_f3_f7 (by decide) ((opcode_rType ..).trans (by decide)) ((funct3_rType ..).trans (by decide)) ((funct7_rType ..).trans (by decide))
theorem sub (rd rs1 rs2 : RegIdx) : Statement (.sub rd rs1 rs2) :=
  of_op_f3_f7 (by decide) ((opcode_rType ..).trans (by decide)) ((funct3_rType ..).trans (by decide)) ((funct7_rType ..).trans (by decide))
theorem sll (rd rs1 rs2 : RegIdx) : Statement (.sll rd rs1 rs2) :=
  of_op_f3_f7 (by decide) ((opcode_rType ..).trans (by decide)) ((funct3_rType ..).trans (by decide)) ((funct7_rType ..).trans (by decide))
theorem slt (rd rs1 rs2 : RegIdx) : Statement (.slt rd rs1 rs2) :=
  of_op_f3_f7 (by decide) ((opcode_rType ..).trans (by decide)) ((funct3_rType ..).trans (by decide)) ((funct7_rType ..).trans (by decide))
theorem sltu (rd rs1 rs2 : RegIdx) : Statement (.sltu rd rs1 rs2) :=
  of_op_f3_f7 (by decide) ((opcode_rType ..).trans (by decide)) ((funct3_rType ..).trans (by decide)) ((funct7_rType ..).trans (by decide))
theorem xor (rd rs1 rs2 : RegIdx) : Statement (.xor rd rs1 rs2) :=
  of_op_f3_f7 (by decide) ((opcode_rType ..).trans (by decide)) ((funct3_rType ..).trans (by decide)) ((funct7_rType ..).trans (by decide))
theorem srl (rd rs1 rs2 : RegIdx) : Statement (.srl rd rs1 rs2) :=
  of_op_f3_f7 (by decide) ((opcode_rType ..).trans (by decide)) ((funct3_rType ..).trans (by decide)) ((funct7_rType ..).trans (by decide))
theorem sra (rd rs1 rs2 : RegIdx) : Statement (.sra rd rs1 rs2) :=
  of_op_f3_f7 (by decide) ((opcode_rType ..).trans (by decide)) ((funct3_rType ..).trans (by decide)) ((funct7_rType ..).trans (by decide))
theorem or (rd rs1 rs2 : RegIdx) : Statement (.or rd rs1 rs2) :=
  of_op_f3_f7 (by decide) ((opcode_rType ..).trans (by decide)) ((funct3_rType ..).trans (by decide)) ((funct7_rType ..).trans (by decide))
theorem and (rd rs1 rs2 : RegIdx) : Statement (.and rd rs1 rs2) :=
  of_op_f3_f7 (by decide) ((opcode_rType ..).trans (by decide)) ((funct3_rType ..).trans (by decide)) ((funct7_rType ..).trans (by decide))
theorem jal (rd : RegIdx) (off : BitVec 21) : Statement (.jal rd off) :=
  of_op (by decide) ((opcode_jType ..).trans (by decide))
theorem jalr (rd rs1 : RegIdx) (imm : BitVec 12) : Statement (.jalr rd rs1 imm) :=
  of_op_f3 (by decide) ((opcode_iType ..).trans (by decide)) ((funct3_iType ..).trans (by decide))
theorem beq (rs1 rs2 : RegIdx) (off : BitVec 13) : Statement (.beq rs1 rs2 off) :=
  of_op_f3 (by decide) ((opcode_bType ..).trans (by decide)) ((funct3_bType ..).trans (by decide))
theorem bne (rs1 rs2 : RegIdx) (off : BitVec 13) : Statement (.bne rs1 rs2 off) :=
  of_op_f3 (by decide) ((opcode_bType ..).trans (by decide)) ((funct3_bType ..).trans (by decide))
theorem blt (rs1 rs2 : RegIdx) (off : BitVec 13) : Statement (.blt rs1 rs2 off) :=
  of_op_f3 (by decide) ((opcode_bType ..).trans (by decide)) ((funct3_bType ..).trans (by decide))
theorem bge (rs1 rs2 : RegIdx) (off : BitVec 13) : Statement (.bge rs1 rs2 off) :=
  of_op_f3 (by decide) ((opcode_bType ..).trans (by decide)) ((funct3_bType ..).trans (by decide))
theorem bltu (rs1 rs2 : RegIdx) (off : BitVec 13) : Statement (.bltu rs1 rs2 off) :=
  of_op_f3 (by decide) ((opcode_bType ..).trans (by decide)) ((funct3_bType ..).trans (by decide))
theorem bgeu (rs1 rs2 : RegIdx) (off : BitVec 13) : Statement (.bgeu rs1 rs2 off) :=
  of_op_f3 (by decide) ((opcode_bType ..).trans (by decide)) ((funct3_bType ..).trans (by decide))
theorem lb (rd rs1 : RegIdx) (imm : BitVec 12) : Statement (.lb rd rs1 imm) :=
  of_op_f3 (by decide) ((opcode_iType ..).trans (by decide)) ((funct3_iType ..).trans (by decide))
theorem lh (rd rs1 : RegIdx) (imm : BitVec 12) : Statement (.lh rd rs1 imm) :=
  of_op_f3 (by decide) ((opcode_iType ..).trans (by decide)) ((funct3_iType ..).trans (by decide))
theorem lw (rd rs1 : RegIdx) (imm : BitVec 12) : Statement (.lw rd rs1 imm) :=
  of_op_f3 (by decide) ((opcode_iType ..).trans (by decide)) ((funct3_iType ..).trans (by decide))
theorem lbu (rd rs1 : RegIdx) (imm : BitVec 12) : Statement (.lbu rd rs1 imm) :=
  of_op_f3 (by decide) ((opcode_iType ..).trans (by decide)) ((funct3_iType ..).trans (by decide))
theorem lhu (rd rs1 : RegIdx) (imm : BitVec 12) : Statement (.lhu rd rs1 imm) :=
  of_op_f3 (by decide) ((opcode_iType ..).trans (by decide)) ((funct3_iType ..).trans (by decide))
theorem sb (rs1 rs2 : RegIdx) (imm : BitVec 12) : Statement (.sb rs1 rs2 imm) :=
  of_op_f3 (by decide) ((opcode_sType ..).trans (by decide)) ((funct3_sType ..).trans (by decide))
theorem sh (rs1 rs2 : RegIdx) (imm : BitVec 12) : Statement (.sh rs1 rs2 imm) :=
  of_op_f3 (by decide) ((opcode_sType ..).trans (by decide)) ((funct3_sType ..).trans (by decide))
theorem sw (rs1 rs2 : RegIdx) (imm : BitVec 12) : Statement (.sw rs1 rs2 imm) :=
  of_op_f3 (by decide) ((opcode_sType ..).trans (by decide)) ((funct3_sType ..).trans (by decide))
theorem csrrw (rd : RegIdx) (csr : CsrAddr) (rs1 : RegIdx) : Statement (.csrrw rd csr rs1) :=
  of_op_f3 (by decide) ((opcode_iType ..).trans (by decide)) ((funct3_iType ..).trans (by decide))
theorem csrrs (rd : RegIdx) (csr : CsrAddr) (rs1 : RegIdx) : Statement (.csrrs rd csr rs1) :=
  of_op_f3 (by decide) ((opcode_iType ..).trans (by decide)) ((funct3_iType ..).trans (by decide))
theorem csrrc (rd : RegIdx) (csr : CsrAddr) (rs1 : RegIdx) : Statement (.csrrc rd csr rs1) :=
  of_op_f3 (by decide) ((opcode_iType ..).trans (by decide)) ((funct3_iType ..).trans (by decide))
theorem csrrwi (rd : RegIdx) (csr : CsrAddr) (uimm : BitVec 5) : Statement (.csrrwi rd csr uimm) :=
  of_op_f3 (by decide) ((opcode_iType ..).trans (by decide)) ((funct3_iType ..).trans (by decide))
theorem csrrsi (rd : RegIdx) (csr : CsrAddr) (uimm : BitVec 5) : Statement (.csrrsi rd csr uimm) :=
  of_op_f3 (by decide) ((opcode_iType ..).trans (by decide)) ((funct3_iType ..).trans (by decide))
theorem csrrci (rd : RegIdx) (csr : CsrAddr) (uimm : BitVec 5) : Statement (.csrrci rd csr uimm) :=
  of_op_f3 (by decide) ((opcode_iType ..).trans (by decide)) ((funct3_iType ..).trans (by decide))
theorem ecall : Statement .ecall := by
  unfold Statement; decide
theorem ebreak : Statement .ebreak := by
  unfold Statement; decide
theorem mret : Statement .mret := by
  unfold Statement; decide
theorem fence (rd rs1 : RegIdx) (fm pred succ : BitVec 4) : Statement (.fence rd rs1 fm pred succ) :=
  of_op_f3 (by decide) ((opcode_iType ..).trans (by decide)) ((funct3_iType ..).trans (by decide))

end Sys2Proof.Laws.TableRow
end

