-- ==== Sys2Proof/Laws/Stages.lean ====
section
/-! SUPPORT. The stages of the cycle level against the datapath of the instruction level: what the instruction in EX reads, computes
and commits, in a state that meets the pipeline invariant. -/

namespace Sys2Proof.Machine

/-- What an instruction in EX reads is the instruction-level register. -/
theorem State.exOperand {s : State} (r : RegIdx) (v : Word)
    (hc : s.operandCurrent r v)
    (hl : s.pipe.exMem.valid = true → s.pipe.exMem.wbSel = .mem → s.pipe.exMem.rd ≠ 0#5 → s.pipe.exMem.rd ≠ r) :
    s.fwd r v = s.settle.reg r := by
  unfold State.reg
  rw [State.settle_regs, regRead_wbRegs, regRead_wbRegs]
  unfold State.fwd
  by_cases hr : r = 0#5
  · simp [hr, hc.1 hr, regRead]
  · simp only [hr, if_false, Bool.and_eq_true, beq_iff_eq, ne_eq, not_false_eq_true, true_and, State.toMemWb]
    by_cases h1 : s.pipe.exMem.valid = true ∧ s.pipe.exMem.regWrite = true ∧ s.pipe.exMem.rd = r
    · rw [if_pos ⟨⟨h1.1, h1.2.1⟩, h1.2.2⟩, if_pos h1]
      have := hl h1.1
      unfold ExMem.fwdVal MemWb.wbVal
      cases hw : s.pipe.exMem.wbSel <;> simp_all
    · rw [if_neg (by simpa [and_assoc] using h1), if_neg h1]
      by_cases h2 : s.pipe.memWb.valid = true ∧ s.pipe.memWb.regWrite = true ∧ s.pipe.memWb.rd = r
      · rw [if_pos ⟨⟨h2.1, h2.2.1⟩, h2.2.2⟩, if_pos h2]
      · rw [if_neg (by simpa [and_assoc] using h2), if_neg h2]
        exact hc.2 hr h1 h2

/-- What the instruction in EX is, with its operands, at the instruction level. -/
structure ExView (s : State) (d : Decoded) (w : Word) : Prop where
  dec : decodeStage w = d
  instr : s.pipe.idEx.instr = w
  fetch : s.settle.fetchWord s.settle.pc = w
  pc : s.settle.pc = s.pipe.idEx.pc
  aligned : alignedPc s.settle.pc = true
  rs1 : d.rs1 = s.pipe.idEx.rs1
  rs2 : d.rs2 = s.pipe.idEx.rs2
  rd : d.rd = s.pipe.idEx.rd
  imm : d.imm = s.pipe.idEx.imm
  ctrl : d.ctrl = s.pipe.idEx.ctrl
  a : s.exA = s.settle.reg d.rs1
  b : s.exB = s.settle.reg d.rs2

/-- Under the pipeline invariant EX sees the instruction-level state: the view that the next lemmas read off. -/
theorem PipeInv.view {s : State} (h : PipeInv s) (hv : s.pipe.idEx.valid = true) :
    ExView s (decodeStage s.pipe.idEx.instr) s.pipe.idEx.instr := by
  obtain ⟨h1, h2, h3⟩ := h.idEx hv
  have hp : s.settle.pc = s.pipe.idEx.pc := by simp [State.oldestPc, hv]
  obtain ⟨oa, ob⟩ := h.operands hv
  have hl := h.interlock hv
  refine ⟨rfl, rfl, ?_, hp, ?_, ?_, ?_, ?_, ?_, ?_, ?_, ?_⟩
  · rw [hp, h1]; simp [State.fetchWord]
  · rw [hp]; exact h2
  all_goals rw [h3]
  · exact State.exOperand _ _ oa (fun a b c => (hl a b c).1)
  · exact State.exOperand _ _ ob (fun a b c => (hl a b c).2)

section
variable {s : State} {d : Decoded} {w : Word} (v : ExView s d w)
include v
/-- The ALU result in EX is the datapath's on the settled state. -/
theorem ExView.alu : s.exAlu = s.settle.dpAlu d := by
  unfold State.exAlu State.dpAlu
  rw [v.ctrl, ← v.a, ← v.b, v.pc, v.imm]
  all_goals (cases s.pipe.idEx.ctrl.op1Sel <;> cases s.pipe.idEx.ctrl.op2Sel <;> rfl)
/-- The jump target in EX. -/
theorem ExView.target : s.exJumpTarget = s.settle.dpTarget d := by
  unfold State.exJumpTarget State.dpTarget
  rw [v.ctrl, ← v.a, v.pc, v.imm]
/-- The jump request in EX. -/
theorem ExView.jumps (hv : s.pipe.idEx.valid = true) : s.exJumpReq = s.settle.jumps d := by
  unfold State.exJumpReq State.jumps
  rw [v.ctrl, ← v.a, ← v.b]; simp [hv]
/-- The CSR value read in EX. -/
theorem ExView.csrOld : s.exCsrOld = s.settle.csrRead d.ctrl.csrAddr := by
  unfold State.exCsrOld
  rw [v.ctrl]
  unfold State.csrRead; simp
/-- The CSR value computed in EX. -/
theorem ExView.csrNew : s.exCsrNew = s.settle.dpCsrNew w d := by
  unfold State.exCsrNew State.dpCsrNew
  rw [v.csrOld, v.ctrl, v.instr, v.a]
omit v in
theorem ExView.busRead (a : Word) {t : State} (hc : t.cfg = s.cfg) (hd : t.dmem = (s.memEdge s.pipe.exMem).dmem)
    (hi : t.imem = s.imem) (hn : t.deviceReads = (s.memEdge s.pipe.exMem).deviceReads) : t.busRead a = s.settle.busRead a :=
  State.busRead_congr (by simp [hc]) (by rw [hd, State.settle_dmem]) (by simp [hi]) (by rw [hn, State.settle_deviceReads]) a
end

/-- Settling does not change which interrupt is pending. -/
@[simp] theorem State.settle_interrupt (s : State) (inp : Inputs) : s.settle.interrupt inp = s.interrupt inp := by
  simp [State.interrupt]

/-- The load-use hazard is the instruction level's. -/
theorem PipeInv.stalls {s : State} (h : PipeInv s) (hv : s.pipe.idEx.valid = true) {d w} (v : ExView s d w) :
    s.loadUse = s.settle.stalls d := by
  unfold State.loadUse State.stalls
  rw [v.ctrl, v.rd]
  cases hi : s.pipe.ifId.valid
  · simp [hi, h.noFront]
  · obtain ⟨h1, -, -⟩ := h.ifId hi
    have ho := h.order hv
    rw [hi, if_pos rfl] at ho
    have : s.settle.fetchWord (s.settle.pc + 4#32) = s.pipe.ifId.instr := by
      rw [v.pc, ← ho, h1]; simp [State.fetchWord]
    rw [this]; simp [hi, hv, h.noFront]

/-- The machine after the commit, settled, but for the PC, the front end and the CSRs. -/
theorem settle_commit_regs {s : State} {inp} {d w} (v : ExView s d w) (hv : s.pipe.idEx.valid = true) :
    (s.commit inp).settle.regs = (s.settle.dpBody w d).regs := by
  rw [State.settle_regs]
  have e1 : (s.commit inp).regs = wbRegs s.regs s.pipe.memWb := by
    simp [State.commit, State.tick, State.pipeEdge, State.csrEdge, State.commitWb_regs]
  have e2 : (s.commit inp).pipe.memWb = s.toMemWb s.pipe.exMem := rfl
  have e3 : (s.commit inp).pipe.exMem = s.toExMem := rfl
  rw [e1, e2, e3, ← State.settle_regs]
  have hb := fun a => ExView.busRead (s := s) a (t := s.commit inp) (by simp [State.commit, State.tick, State.pipeEdge, State.csrEdge])
    (by simp [State.commit, State.tick, State.pipeEdge, State.csrEdge])
    (by simp [State.commit, State.tick, State.pipeEdge, State.csrEdge])
    (by simp [State.commit, State.tick, State.pipeEdge, State.csrEdge])
  unfold State.dpBody
  dsimp only
  have hval : ((s.commit inp).toMemWb s.toExMem).wbVal = s.settle.dpWb d := by
    unfold State.dpWb MemWb.wbVal State.toMemWb State.toExMem State.memData ExMem.re
    rw [← v.ctrl, ← v.alu, ← v.csrOld, v.pc]
    simp only [hb, hv, Bool.true_and]
    all_goals (cases d.ctrl.wbSel <;> rfl)
  have hrd : (s.commit inp).toMemWb s.toExMem = { (s.commit inp).toMemWb s.toExMem with } := rfl
  unfold wbRegs MemWb.we
  rw [hval]
  simp only [State.toMemWb, State.toExMem, ← v.ctrl, ← v.rd, hv, Bool.true_and]
  have key : ∀ t : State, t.regs = s.settle.regs →
      (if (d.ctrl.regWrite && d.rd != 0#5) = true then regWrite s.settle.regs d.rd (s.settle.dpWb d) else s.settle.regs) =
        (if d.ctrl.regWrite = true then t.setReg d.rd (s.settle.dpWb d) else t).regs := by
    intro t ht
    cases d.ctrl.regWrite
    · simp [ht]
    · by_cases h0 : d.rd = 0#5
      · simp [h0, ht, regWrite]
      · simp [h0, ht]
  apply key
  (repeat' split) <;> first | rfl | simp

/-- The data memory of the settled state after a cycle is the datapath's. -/
theorem settle_commit_dmem {s : State} {inp} {d w} (v : ExView s d w) (hv : s.pipe.idEx.valid = true) :
    (s.commit inp).settle.dmem = (s.settle.dpBody w d).dmem := by
  rw [State.settle_dmem, State.memEdge_dmem]
  have e3 : (s.commit inp).pipe.exMem = s.toExMem := rfl
  rw [e3]
  have hd : (s.commit inp).dmem = s.settle.dmem := by
    rw [State.settle_dmem]; simp [State.commit, State.tick, State.pipeEdge, State.csrEdge]
  have hc : (s.commit inp).cfg = s.settle.cfg := by
    simp [State.commit, State.tick, State.pipeEdge, State.csrEdge]
  unfold State.dpBody
  dsimp only
  simp only [ExMem.we, State.toExMem, hv, Bool.true_and, ← v.ctrl]
  rw [v.alu, v.b]
  have h1 : ∀ (t : State) (b : Bool), (if b = true then t.setReg d.rd (s.settle.dpWb d) else t).dmem = t.dmem := by
    intro t b; cases b <;> simp
  rw [h1]
  split
  · refine (State.storeAt_dmem_congr (s := s.settle) hc hd _ _ _).trans (State.storeAt_dmem_congr ?_ ?_ _ _ _).symm
    · (repeat' split) <;> first | rfl | simp
    · (repeat' split) <;> first | rfl | simp
  · rw [hd]; (repeat' split) <;> first | rfl | simp

/-- The device counter of the settled state after a cycle is the datapath's. -/
theorem settle_commit_deviceReads {s : State} {inp} {d w} (v : ExView s d w) (hv : s.pipe.idEx.valid = true) :
    (s.commit inp).settle.deviceReads = (s.settle.dpBody w d).deviceReads := by
  rw [State.settle_deviceReads, State.memEdge_deviceReads]
  have e3 : (s.commit inp).pipe.exMem = s.toExMem := rfl
  rw [e3]
  have hd : (s.commit inp).deviceReads = s.settle.deviceReads := by
    rw [State.settle_deviceReads]; simp [State.commit, State.tick, State.pipeEdge, State.csrEdge]
  have hc : (s.commit inp).cfg = s.settle.cfg := by
    simp [State.commit, State.tick, State.pipeEdge, State.csrEdge]
  unfold State.dpBody
  dsimp only
  simp only [ExMem.re, State.toExMem, hv, Bool.true_and, ← v.ctrl]
  rw [v.alu]
  have h1 : ∀ (t : State) (b : Bool), (if b = true then t.setReg d.rd (s.settle.dpWb d) else t).deviceReads = t.deviceReads := by
    intro t b; cases b <;> simp
  have h2 : ∀ (t : State) (b : Bool), (if b = true then t.storeAt d.ctrl.funct3 (s.settle.dpAlu d) (s.settle.reg d.rs2) else t).deviceReads = t.deviceReads := by
    intro t b; cases b <;> simp [State.storeAt]
  rw [h1, h2]
  split
  · refine (State.afterBusRead_deviceReads_congr (s := s.settle) hc hd _).trans (State.afterBusRead_deviceReads_congr ?_ ?_ _).symm
    · (repeat' split) <;> first | rfl | simp
    · (repeat' split) <;> first | rfl | simp
  · rw [hd]; (repeat' split) <;> first | rfl | simp

/-- What the datapath leaves in each writable CSR. -/
theorem dpBody_csr (s : State) (w : Word) (d : Decoded) (q : CsrReg) :
    (s.dpBody w d).csrReg q =
      arbitrate none (cpuWrite (if d.ctrl.csrWrite then csrLegal d.ctrl.csrAddr (s.dpCsrNew w d) else none) q) (s.csrReg q) := by
  have h : (s.dpBody w d).csrReg q = (if d.ctrl.csrWrite then s.csrWrite d.ctrl.csrAddr (s.dpCsrNew w d) else s).csrReg q := by
    unfold State.dpBody
    dsimp only
    apply State.csrReg_congr <;> (repeat' split) <;> first | rfl | simp
  rw [h]
  unfold State.csrWrite cpuWrite
  split
  · split
    · rename_i r v' hr
      rw [State.csrReg_setCsrReg]
      by_cases hq : q = r
      · subst hq; simp [arbitrate, hr]
      · have hq' : r ≠ q := fun e => hq e.symm
        simp [arbitrate, hr, hq, hq']
    · rename_i hr
      simp [arbitrate, hr]
  · simp [arbitrate]

/-- What the datapath never changes. -/
theorem dpBody_keep (s : State) (w : Word) (d : Decoded) : (s.dpBody w d).cfg = s.cfg ∧ (s.dpBody w d).mip = s.mip ∧
    (s.dpBody w d).mcycle64 = s.mcycle64 ∧ (s.dpBody w d).imem = s.imem ∧ (s.dpBody w d).pipe = s.pipe ∧
    (s.dpBody w d).inputs = s.inputs ∧ (s.dpBody w d).pc = s.pc := by
  unfold State.dpBody
  dsimp only
  refine ⟨?_, ?_, ?_, ?_, ?_, ?_, ?_⟩ <;> (repeat' split) <;> first | rfl | simp

/-- Everything of the settled committed state but the PC, the front end and the CSRs. -/
theorem settle_commit_ex {s : State} {inp} {d w} (v : ExView s d w) (hv : s.pipe.idEx.valid = true)
    (t : State) (pc : Word) (f : FrontEnd)
    (hcsr : ∀ q, t.csrReg q = s.nextCsr inp q)
    (hpc : (s.commit inp).oldestPc = pc)
    (hf : (s.commit inp).settle.front = f)
    (ht : t.regs = (s.settle.dpBody w d).regs ∧ t.dmem = (s.settle.dpBody w d).dmem ∧
      t.deviceReads = (s.settle.dpBody w d).deviceReads ∧ t.cfg = s.cfg ∧ t.imem = s.imem ∧ t.mcycle64 = s.mcycle64 ∧ t.pipe = {} ∧ t.inputs = s.inputs)
    (hp : t.pc = pc) :
    (s.commit inp).settle = t.endCycle inp f := by
  obtain ⟨h1, h2, h3, h4, h5, h6, h7, h8⟩ := ht
  have k1 := hcsr .mstatus
  have k2 := hcsr .mie
  have k3 := hcsr .mtvec
  have k4 := hcsr .mscratch
  have k5 := hcsr .mepc
  have k6 := hcsr .mcause
  have k7 := hcsr .mtval
  simp only [State.csrReg] at k1 k2 k3 k4 k5 k6 k7
  apply State.ext
  case pc => simp [hpc, hp]
  case front => rw [hf]; simp
  case regs => rw [settle_commit_regs v hv, ← h1]; simp
  case dmem => rw [settle_commit_dmem v hv, ← h2]; simp
  case deviceReads => rw [settle_commit_deviceReads v hv, ← h3]; simp
  all_goals simp [State.commit, State.tick, State.pipeEdge, State.csrEdge, *]

/-- The front end's view after a cycle. -/
theorem commit_front {s : State} {inp} : (s.commit inp).settle.front =
    ({ inId := s.pipe.ifId.valid, inEx := s.pipe.idEx.valid } : FrontEnd).next (s.flush inp) s.loadUse inp.imemValid := by
  rw [State.settle_front]
  have e1 : (s.commit inp).front = {} := rfl
  have e2 : (s.commit inp).pipe.ifId = s.nextIfId inp := rfl
  have e3 : (s.commit inp).pipe.idEx = s.nextIdEx inp := rfl
  rw [e1, e2, e3]
  unfold State.nextIfId State.nextIdEx FrontEnd.next
  cases s.flush inp
  · cases s.loadUse
    · cases hi : s.pipe.ifId.valid <;> cases inp.imemValid <;> simp [State.toIdEx]
    · simp
  · simp

/-- After a flush the next instruction is at the new PC. -/
theorem commit_oldestPc_flush {s : State} {inp} (hf : s.flush inp = true) : (s.commit inp).oldestPc = s.nextPc inp := by
  have e2 : (s.commit inp).pipe.ifId = s.nextIfId inp := rfl
  have e3 : (s.commit inp).pipe.idEx = s.nextIdEx inp := rfl
  have e4 : (s.commit inp).pc = s.nextPc inp := rfl
  unfold State.oldestPc
  rw [e2, e3, e4]
  simp [State.nextIfId, State.nextIdEx, hf]

/-- Without a flush the next instruction is the one after the one in EX. -/
theorem commit_oldestPc_seq {s : State} {inp} (h : PipeInv s) (hv : s.pipe.idEx.valid = true) (hf : s.flush inp = false) :
    (s.commit inp).oldestPc = s.pipe.idEx.pc + 4#32 := by
  have e2 : (s.commit inp).pipe.ifId = s.nextIfId inp := rfl
  have e3 : (s.commit inp).pipe.idEx = s.nextIdEx inp := rfl
  have e4 : (s.commit inp).pc = s.nextPc inp := rfl
  have ho := h.order hv
  have ht : s.trapDecision inp = .none ∧ s.exJumpReq = false := by simpa [State.flush] using hf
  unfold State.oldestPc
  rw [e2, e3, e4]
  unfold State.nextIfId State.nextIdEx State.nextPc
  rw [hf, ht.1, ht.2]
  cases hl : s.loadUse
  · cases hi : s.pipe.ifId.valid <;> cases hm : inp.imemValid <;> simp_all [State.toIdEx]
  · have hi : s.pipe.ifId.valid = true := by
      unfold State.loadUse at hl; simp at hl; tauto
    simp_all

/-- A cycle with a bubble in EX is a bubble cycle of the instruction level. -/
theorem bubble_commit {s : State} {inp} (h : PipeInv s) (hv : s.pipe.idEx.valid = false) :
    (s.commit inp).settle = s.settle.endCycle inp (s.settle.front.next false false inp.imemValid) := by
  have htd : s.trapDecision inp = .none := by simp [State.trapDecision, hv]
  have hj : s.exJumpReq = false := by simp [State.exJumpReq, hv]
  have hf : s.flush inp = false := by simp [State.flush, htd, hj]
  have hl : s.loadUse = false := by simp [State.loadUse, hv]
  have hcsr : ∀ q, s.nextCsr inp q = s.csrReg q := by
    intro q; simp [State.nextCsr, htd, State.trapWrite, State.exCpuWrite, hv, cpuWrite, arbitrate]
  have k1 := hcsr .mstatus
  have k2 := hcsr .mie
  have k3 := hcsr .mtvec
  have k4 := hcsr .mscratch
  have k5 := hcsr .mepc
  have k6 := hcsr .mcause
  have k7 := hcsr .mtval
  simp only [State.csrReg] at k1 k2 k3 k4 k5 k6 k7
  clear hcsr
  have ex : (s.commit inp).pipe.exMem = s.toExMem := rfl
  have ew : (s.commit inp).pipe.memWb = s.toMemWb s.pipe.exMem := rfl
  have hxv : s.toExMem.valid = false := hv
  have hre : s.toExMem.re = false := by simp [ExMem.re, hxv]
  have hwe : s.toExMem.we = false := by simp [ExMem.we, hxv]
  apply State.ext
  case front =>
    rw [commit_front, hf, hl]
    simp [h.noFront, hv]
  case pc =>
    have e2 : (s.commit inp).pipe.ifId = s.nextIfId inp := rfl
    have e3 : (s.commit inp).pipe.idEx = s.nextIdEx inp := rfl
    have e4 : (s.commit inp).pc = s.nextPc inp := rfl
    rw [State.settle_pc, State.endCycle_pc, State.settle_pc]
    unfold State.oldestPc
    rw [e2, e3, e4]
    unfold State.nextIfId State.nextIdEx State.nextPc
    rw [hf, hl, htd, hj]
    cases hi : s.pipe.ifId.valid
    · cases inp.imemValid <;> simp [hv]
    · simp [hv, State.toIdEx]
  case regs =>
    rw [State.settle_regs, ex, ew]
    have e1 : (s.commit inp).regs = wbRegs s.regs s.pipe.memWb := by
      simp [State.commit, State.tick, State.pipeEdge, State.csrEdge, State.commitWb_regs]
    rw [e1, State.endCycle_regs, State.settle_regs]
    have : ((s.commit inp).toMemWb s.toExMem).we = false := by simp [MemWb.we, State.toMemWb, hxv]
    generalize wbRegs (wbRegs s.regs s.pipe.memWb) (s.toMemWb s.pipe.exMem) = r
    simp [wbRegs, this]
  case dmem =>
    rw [State.settle_dmem, ex, State.memEdge_dmem, hwe, State.endCycle_dmem, State.settle_dmem]
    simp [State.commit, State.tick, State.pipeEdge, State.csrEdge]
  case deviceReads =>
    rw [State.settle_deviceReads, ex, State.memEdge_deviceReads, hre, State.endCycle_deviceReads, State.settle_deviceReads]
    simp [State.commit, State.tick, State.pipeEdge, State.csrEdge]
  all_goals simp [State.commit, State.tick, State.pipeEdge, State.csrEdge, *]

/-- A trap-class word has no other control bit set. -/
theorem decodeStage_sys (w : Word) (h : (decodeStage w).ctrl.sys ≠ .none) :
    (decodeStage w).ctrl.csrWrite = false ∧ (decodeStage w).ctrl.memRead = false ∧ (decodeStage w).ctrl.memWrite = false ∧
    (decodeStage w).ctrl.regWrite = false ∧ (∀ s : State, s.jumps (decodeStage w) = false) := by
  unfold decodeStage immCtrl at *
  cases hd : decodeWord w with
  | error e => simp [hd] at h
  | ok i => cases i <;> simp [hd, ctrlOf, ctrlOpImm, ctrlOp, ctrlLoad, ctrlStore, ctrlCsr, ctrlBranch, State.jumps] at h ⊢

/-- The datapath of a trap-class word changes nothing. -/
theorem dpBody_sys (s : State) (w : Word) (h : (decodeStage w).ctrl.sys ≠ .none) : s.dpBody w (decodeStage w) = s := by
  obtain ⟨h1, h2, h3, h4, -⟩ := decodeStage_sys w h
  simp [State.dpBody, h1, h2, h3, h4]

/-- The next value of a CSR by the settled state. -/
theorem nextCsr_eq {s : State} {inp d w} (v : ExView s d w) (hv : s.pipe.idEx.valid = true) (q : CsrReg) :
    s.nextCsr inp q = arbitrate (s.trapWrite (s.trapDecision inp) q)
      (cpuWrite (if d.ctrl.csrWrite then csrLegal d.ctrl.csrAddr (s.settle.dpCsrNew w d) else none) q) (s.csrReg q) := by
  unfold State.nextCsr State.exCpuWrite
  rw [v.csrNew, ← v.ctrl, hv]; simp

/-- Settling changes no CSR. -/
theorem settle_csrReg (s : State) (q : CsrReg) : s.settle.csrReg q = s.csrReg q := by
  apply State.csrReg_congr <;> simp

/-- A store into text in EX, by the settled state. -/
theorem storesText_eq {s : State} {d w} (v : ExView s d w) (hv : s.pipe.idEx.valid = true) :
    s.storesText = (d.ctrl.memWrite && s.settle.hitsText (s.settle.dpAlu d)) := by
  unfold State.storesText
  rw [v.alu, ← v.ctrl, hv, State.hitsText_congr (State.settle_cfg s)]; simp

/-- pc + 4 of an aligned address is aligned. -/
theorem aligned_next {a : Word} (h : alignedPc a = true) : alignedPc (a + 4#32) = true := by
  unfold alignedPc at *
  simp only [beq_iff_eq] at *
  apply BitVec.eq_of_toNat_eq
  have := congrArg BitVec.toNat h
  simp [BitVec.extractLsb'_toNat] at *
  omega

/-- An address whose pc + 4 is aligned is aligned. -/
theorem aligned_prev {a : Word} (h : alignedPc (a + 4#32) = true) : alignedPc a = true := by
  unfold alignedPc at *
  simp only [beq_iff_eq] at *
  apply BitVec.eq_of_toNat_eq
  have := congrArg BitVec.toNat h
  simp [BitVec.extractLsb'_toNat] at *
  omega

/-- A valid instruction in EX: the PC of the fetch is aligned. -/
theorem PipeInv.pc_aligned {s : State} (h : PipeInv s) (hv : s.pipe.idEx.valid = true) : alignedPc s.pc = true := by
  obtain ⟨-, h2, -⟩ := h.idEx hv
  have ho := h.order hv
  cases hi : s.pipe.ifId.valid
  · simp [hi] at ho; rw [ho]; exact aligned_next h2
  · obtain ⟨-, h4, h5⟩ := h.ifId hi
    rw [h5]; exact aligned_next h4

/-- Only a load has memory data as its write-back source. -/
theorem decodeStage_mem (w : Word) (h : (decodeStage w).ctrl.wbSel = .mem) : (decodeStage w).ctrl.memRead = true := by
  unfold decodeStage immCtrl at *
  cases hd : decodeWord w with
  | error e => simp [hd] at h
  | ok i => cases i <;> simp [hd, ctrlOf, ctrlOpImm, ctrlOp, ctrlLoad, ctrlStore, ctrlCsr, ctrlBranch] at h ⊢

/-- The register read in ID is the register file's with the write back of the same cycle. -/
theorem rfRead_eq (s : State) (r : RegIdx) : s.rfRead r = regRead (wbRegs s.regs s.pipe.memWb) r := by
  rw [regRead_wbRegs]
  unfold State.rfRead State.reg MemWb.we
  by_cases h : r = 0#5
  · simp [h, regRead]
  · simp only [h, if_false]
    by_cases h2 : s.pipe.memWb.valid = true ∧ s.pipe.memWb.regWrite = true ∧ s.pipe.memWb.rd = r
    · obtain ⟨a, b, c⟩ := h2; subst c; simp [a, b, h]
    · rw [if_neg, if_neg]
      · tauto
      · simp; tauto

end Sys2Proof.Machine
end

