-- ==== Sys2Proof/Tests/Slice0.lean ====
section
/-! SUPPORT. The model's own tests. Every expected value is the spec's: the Examples of the rules, or the vectors of
95_test_vectors.md, named in each comment. After them, one named witness per obligation with hypotheses. -/

namespace Sys2Proof.Tests

open Sys2Proof Sys2Proof.Machine

/-! ### WellFormed: an ill-formed term for each check (R152, R154) -/

theorem test_illformed_jal : (Instr.jal 1#5 3#21).wellFormed = false := by decide
theorem test_illformed_beq : (Instr.beq 1#5 2#5 9#13).wellFormed = false := by decide
theorem test_illformed_bne : (Instr.bne 1#5 2#5 1#13).wellFormed = false := by decide
theorem test_illformed_blt : (Instr.blt 1#5 2#5 (-1)).wellFormed = false := by decide
theorem test_illformed_bge : (Instr.bge 1#5 2#5 5#13).wellFormed = false := by decide
theorem test_illformed_bltu : (Instr.bltu 1#5 2#5 7#13).wellFormed = false := by decide
theorem test_illformed_bgeu : (Instr.bgeu 1#5 2#5 4095#13).wellFormed = false := by decide

/-! ### Decoding: every constructor, from the words of the rules' Examples and of 95_test_vectors.md -/

/-- Upper (R204, R205). -/
theorem test_decode_upper :
    decodeWord 0x123452B7#32 = .ok (.lui 5#5 0x12345#20) ∧
    decodeWord 0x00001317#32 = .ok (.auipc 6#5 1#20) := by decide

/-- OP-IMM (R206 to R211). -/
theorem test_decode_op_imm :
    decodeWord 0xFFF00093#32 = .ok (.addi 1#5 0#5 0xFFF#12) ∧
    decodeWord 0x0000A113#32 = .ok (.slti 2#5 1#5 0#12) ∧
    decodeWord 0xFFF0B113#32 = .ok (.sltiu 2#5 1#5 0xFFF#12) ∧
    decodeWord 0xFFF0C193#32 = .ok (.xori 3#5 1#5 0xFFF#12) ∧
    decodeWord 0x0F00E193#32 = .ok (.ori 3#5 1#5 0x0F0#12) ∧
    decodeWord 0x0FF0F193#32 = .ok (.andi 3#5 1#5 0x0FF#12) := by decide

/-- Shift-immediates (R212 to R214). -/
theorem test_decode_shift_imm :
    decodeWord 0x01F09213#32 = .ok (.slli 4#5 1#5 31#5) ∧
    decodeWord 0x01C0D213#32 = .ok (.srli 4#5 1#5 28#5) ∧
    decodeWord 0x41C0D213#32 = .ok (.srai 4#5 1#5 28#5) := by decide

/-- OP (R215 to R219). -/
theorem test_decode_op_a :
    decodeWord 0x002081B3#32 = .ok (.add 3#5 1#5 2#5) ∧
    decodeWord 0x402081B3#32 = .ok (.sub 3#5 1#5 2#5) ∧
    decodeWord 0x002091B3#32 = .ok (.sll 3#5 1#5 2#5) ∧
    decodeWord 0x0020A1B3#32 = .ok (.slt 3#5 1#5 2#5) ∧
    decodeWord 0x0020B1B3#32 = .ok (.sltu 3#5 1#5 2#5) := by decide

/-- OP (R220 to R224). -/
theorem test_decode_op_b :
    decodeWord 0x0020C1B3#32 = .ok (.xor 3#5 1#5 2#5) ∧
    decodeWord 0x0020D1B3#32 = .ok (.srl 3#5 1#5 2#5) ∧
    decodeWord 0x4020D1B3#32 = .ok (.sra 3#5 1#5 2#5) ∧
    decodeWord 0x0020E1B3#32 = .ok (.or 3#5 1#5 2#5) ∧
    decodeWord 0x0020F1B3#32 = .ok (.and 3#5 1#5 2#5) := by decide

/-- Jumps (R255, R256). -/
theorem test_decode_jumps :
    decodeWord 0x010000EF#32 = .ok (.jal 1#5 16#21) ∧
    decodeWord 0x001282E7#32 = .ok (.jalr 5#5 5#5 1#12) := by decide

/-- Branches (R257 to R262). -/
theorem test_decode_branches :
    decodeWord 0x00208463#32 = .ok (.beq 1#5 2#5 8#13) ∧
    decodeWord 0xFE209EE3#32 = .ok (.bne 1#5 2#5 (-4)) ∧
    decodeWord 0x0020C663#32 = .ok (.blt 1#5 2#5 12#13) ∧
    decodeWord 0x0020D663#32 = .ok (.bge 1#5 2#5 12#13) ∧
    decodeWord 0x0020E663#32 = .ok (.bltu 1#5 2#5 12#13) ∧
    decodeWord 0x0020F663#32 = .ok (.bgeu 1#5 2#5 12#13) := by decide

/-- Loads (R282 to R286). -/
theorem test_decode_loads :
    decodeWord 0x00008283#32 = .ok (.lb 5#5 1#5 0#12) ∧
    decodeWord 0x00209283#32 = .ok (.lh 5#5 1#5 2#12) ∧
    decodeWord 0x0000A283#32 = .ok (.lw 5#5 1#5 0#12) ∧
    decodeWord 0x0030C283#32 = .ok (.lbu 5#5 1#5 3#12) ∧
    decodeWord 0x0020D283#32 = .ok (.lhu 5#5 1#5 2#12) := by decide

/-- Stores (R287 to R289). -/
theorem test_decode_stores :
    decodeWord 0x002080A3#32 = .ok (.sb 1#5 2#5 1#12) ∧
    decodeWord 0x00209123#32 = .ok (.sh 1#5 2#5 2#12) ∧
    decodeWord 0xFE20AE23#32 = .ok (.sw 1#5 2#5 (-4)) := by decide

/-- CSR instructions (R313 to R318). -/
theorem test_decode_csr :
    decodeWord 0x340312F3#32 = .ok (.csrrw 5#5 0x340#12 6#5) ∧
    decodeWord 0x300322F3#32 = .ok (.csrrs 5#5 0x300#12 6#5) ∧
    decodeWord 0x300332F3#32 = .ok (.csrrc 5#5 0x300#12 6#5) ∧
    decodeWord 0x340FD2F3#32 = .ok (.csrrwi 5#5 0x340#12 31#5) ∧
    decodeWord 0x30046073#32 = .ok (.csrrsi 0#5 0x300#12 8#5) ∧
    decodeWord 0x30047073#32 = .ok (.csrrci 0#5 0x300#12 8#5) := by decide

/-- The trap class and FENCE (R320 to R322, R330; DEC-11, DEC-12). -/
theorem test_decode_system :
    decodeWord 0x00000073#32 = .ok (.ecall) ∧
    decodeWord 0x00100073#32 = .ok (.ebreak) ∧
    decodeWord 0x30200073#32 = .ok (.mret) ∧
    decodeWord 0x0FF0000F#32 = .ok (.fence 0#5 0#5 0#4 0xF#4 0xF#4) ∧
    decodeWord 0x8330000F#32 = .ok (.fence 0#5 0#5 8#4 3#4 3#4) := by decide

/-- The immediate extremes (IMM-1 to IMM-9), DEC-8 and DEC-24. -/
theorem test_decode_extremes :
    decodeWord 0x80000013#32 = .ok (.addi 0#5 0#5 0x800#12) ∧
    decodeWord 0x7FF00013#32 = .ok (.addi 0#5 0#5 0x7FF#12) ∧
    decodeWord 0x80000023#32 = .ok (.sb 0#5 0#5 0x800#12) ∧
    decodeWord 0x7E000FA3#32 = .ok (.sb 0#5 0#5 0x7FF#12) ∧
    decodeWord 0x80000063#32 = .ok (.beq 0#5 0#5 (-4096)) ∧
    decodeWord 0x7E000FE3#32 = .ok (.beq 0#5 0#5 4094#13) ∧
    decodeWord 0x800000EF#32 = .ok (.jal 1#5 (-1048576)) ∧
    decodeWord 0x7FFFF0EF#32 = .ok (.jal 1#5 1048574#21) ∧
    decodeWord 0xFFFFF037#32 = .ok (.lui 0#5 0xFFFFF#20) ∧
    decodeWord 0x40002013#32 = .ok (.slti 0#5 0#5 0x400#12) ∧
    decodeWord 0x00000013#32 = .ok (.addi 0#5 0#5 0#12) := by decide

/-- The same words read back by the host's entry point, and from bytes in the hardware's order. -/
theorem test_decodeTableWord : decodeTableWord 32 0x002081B3 = some (.add 3#5 1#5 2#5) ∧ decodeTableWord 32 0x10500073 = none := by
  decide
theorem test_decode_bytes : decode [0xB3#8, 0x81#8, 0x20#8, 0x00#8, 0x77#8] = .ok (.add 3#5 1#5 2#5, [0x77#8]) := by decide
theorem test_decode_truncated : decode [0xB3#8, 0x81#8, 0x20#8] = .error .truncated := by decide

/-! The default arm: DEC-1 to DEC-23, each rejected by the name of its reason. -/

theorem test_default_opcodes :
    decodeWord 0x00000000#32 = .error (.unknownOpcode 0#7) ∧
    decodeWord 0xFFFFFFFF#32 = .error (.unknownOpcode 0x7F#7) ∧
    decodeWord 0x0000000B#32 = .error (.unknownOpcode 0x0B#7) := by decide
theorem test_default_funct7 :
    decodeWord 0x02000033#32 = .error (.reservedFunct7 0x33#7 0#3 1#7) ∧
    decodeWord 0x40001033#32 = .error (.reservedFunct7 0x33#7 1#3 0x20#7) ∧
    decodeWord 0x40001013#32 = .error (.reservedFunct7 0x13#7 1#3 0x20#7) ∧
    decodeWord 0x02005013#32 = .error (.reservedFunct7 0x13#7 5#3 1#7) ∧
    decodeWord 0x02A01013#32 = .error (.reservedFunct7 0x13#7 1#3 1#7) := by decide
theorem test_default_funct3 :
    decodeWord 0x0000100F#32 = .error (.reservedFunct3 0x0F#7 1#3) ∧
    decodeWord 0x0000200F#32 = .error (.reservedFunct3 0x0F#7 2#3) ∧
    decodeWord 0x00004073#32 = .error (.reservedFunct3 0x73#7 4#3) ∧
    decodeWord 0x00002063#32 = .error (.reservedFunct3 0x63#7 2#3) ∧
    decodeWord 0x00003063#32 = .error (.reservedFunct3 0x63#7 3#3) ∧
    decodeWord 0x00003003#32 = .error (.reservedFunct3 0x03#7 3#3) ∧
    decodeWord 0x00006003#32 = .error (.reservedFunct3 0x03#7 6#3) ∧
    decodeWord 0x00003023#32 = .error (.reservedFunct3 0x23#7 3#3) ∧
    decodeWord 0x00001067#32 = .error (.reservedFunct3 0x67#7 1#3) := by decide
theorem test_default_system :
    decodeWord 0x00000873#32 = .error (.reservedSystem 0x00000873#32) ∧
    decodeWord 0x10500073#32 = .error (.reservedSystem 0x10500073#32) ∧
    decodeWord 0x10200073#32 = .error (.reservedSystem 0x10200073#32) := by decide

/-! ### One instruction at pc 0x1000 (`RESET_PC` of 95_test_vectors.md) -/

/-- The reset state with these registers; the data memory holds the word 0x80FF7F01 at 0x2000 (section 2.4). -/
def regsAre (l : List (RegIdx × Word)) : State :=
  l.foldl (fun s p => s.setReg p.1 p.2) (State.resetWith Config.default [] [(8192, 1#8), (8193, 0x7F#8), (8194, 0xFF#8), (8195, 0x80#8)] [] 0)

/-- The outcome is a next state that meets `p`. -/
def nextIs (r : Host.Outcome State Fault Refusal) (p : State → Bool) : Bool :=
  match r with
  | .next t => p t
  | .fault _ => false
  | .refused _ => false

/-- The word, executed on these registers, gives register `rd` the value `v` and goes to `pc`. -/
def gives (w : Word) (l : List (RegIdx × Word)) (rd : RegIdx) (v pc : Word) : Bool :=
  nextIs (execWord w (regsAre l)) fun t => t.reg rd == v && t.pc == pc

/-- The store leaves `v` as the word at 0x2000. -/
def leaves (w : Word) (l : List (RegIdx × Word)) (v : Word) : Bool :=
  nextIs (execWord w (regsAre l)) fun t => t.dmem.readWord 0x800#30 == v && t.pc == 0x1004#32

/-- The word, executed with CSR `csr` holding `old`, gives x5 `v` and the CSR `new`. -/
def csrGives (w : Word) (l : List (RegIdx × Word)) (csr : CsrAddr) (old v new : Word) : Bool :=
  nextIs (execWord w ((regsAre l).csrWrite csr old)) fun t => t.reg 5#5 == v && t.csrRead csr == new && t.pc == 0x1004#32

/-! Integer computation: the INT vectors. -/

theorem test_lui_int32 : gives 0xFFFFF1B7#32 [] 3#5 0xFFFFF000#32 0x00001004#32 = true := by decide
theorem test_auipc_int35 : gives 0xFFFFF197#32 [] 3#5 0x00000000#32 0x00001004#32 = true := by decide
theorem test_auipc_int34 : gives 0x80000197#32 [] 3#5 0x80001000#32 0x00001004#32 = true := by decide
theorem test_addi_int19 : gives 0x7FF08193#32 [(1#5, 0x7FFFFFFF#32)] 3#5 0x800007FE#32 0x00001004#32 = true := by decide
theorem test_addi_x0_int36 : gives 0x00508013#32 [(1#5, 0x00000007#32)] 0#5 0x00000000#32 0x00001004#32 = true := by decide
theorem test_slti_int20 : gives 0xFFF0A193#32 [(1#5, 0xFFFFFFFE#32)] 3#5 0x00000001#32 0x00001004#32 = true := by decide
theorem test_sltiu_int21 : gives 0xFFF0B193#32 [(1#5, 0xFFFFFFFE#32)] 3#5 0x00000001#32 0x00001004#32 = true := by decide
theorem test_sltiu_int22 : gives 0xFFF0B193#32 [(1#5, 0xFFFFFFFF#32)] 3#5 0x00000000#32 0x00001004#32 = true := by decide
theorem test_xori_int24 : gives 0xFFF0C193#32 [(1#5, 0x12345678#32)] 3#5 0xEDCBA987#32 0x00001004#32 = true := by decide
theorem test_ori_int25 : gives 0x8000E193#32 [(1#5, 0x00000001#32)] 3#5 0xFFFFF801#32 0x00001004#32 = true := by decide
theorem test_andi_int27 : gives 0x7FF0F193#32 [(1#5, 0xFFFFFFFF#32)] 3#5 0x000007FF#32 0x00001004#32 = true := by decide
theorem test_slli_r212 : gives 0x01F09213#32 [(1#5, 0x00000003#32)] 4#5 0x80000000#32 0x00001004#32 = true := by decide
theorem test_srli_int29 : gives 0x01F0D193#32 [(1#5, 0x89ABCDEF#32)] 3#5 0x00000001#32 0x00001004#32 = true := by decide
theorem test_srai_int31 : gives 0x4040D193#32 [(1#5, 0x89ABCDEF#32)] 3#5 0xF89ABCDE#32 0x00001004#32 = true := by decide
theorem test_add_int1 : gives 0x002081B3#32 [(1#5, 0x7FFFFFFF#32), (2#5, 0x00000001#32)] 3#5 0x80000000#32 0x00001004#32 = true := by decide
theorem test_add_int37 : gives 0x001080B3#32 [(1#5, 0x40000000#32)] 1#5 0x80000000#32 0x00001004#32 = true := by decide
theorem test_sub_int4 : gives 0x402081B3#32 [(1#5, 0x80000000#32), (2#5, 0x00000001#32)] 3#5 0x7FFFFFFF#32 0x00001004#32 = true := by decide
theorem test_sll_int6 : gives 0x002091B3#32 [(1#5, 0x00000001#32), (2#5, 0x00000020#32)] 3#5 0x00000001#32 0x00001004#32 = true := by decide
theorem test_sll_int7 : gives 0x002091B3#32 [(1#5, 0x00000001#32), (2#5, 0x00000021#32)] 3#5 0x00000002#32 0x00001004#32 = true := by decide
theorem test_srl_int8 : gives 0x0020D1B3#32 [(1#5, 0x80000000#32), (2#5, 0x0000001F#32)] 3#5 0x00000001#32 0x00001004#32 = true := by decide
theorem test_sra_int10 : gives 0x4020D1B3#32 [(1#5, 0x80000000#32), (2#5, 0xFFFFFFE4#32)] 3#5 0xF8000000#32 0x00001004#32 = true := by decide
theorem test_slt_int13 : gives 0x0020A1B3#32 [(1#5, 0x80000000#32), (2#5, 0x7FFFFFFF#32)] 3#5 0x00000001#32 0x00001004#32 = true := by decide
theorem test_sltu_int12 : gives 0x0020B1B3#32 [(1#5, 0xFFFFFFFF#32), (2#5, 0x00000001#32)] 3#5 0x00000000#32 0x00001004#32 = true := by decide
theorem test_xor_int15 : gives 0x0020C1B3#32 [(1#5, 0xF0F0F0F0#32), (2#5, 0xFF00FF00#32)] 3#5 0x0FF00FF0#32 0x00001004#32 = true := by decide
theorem test_or_int16 : gives 0x0020E1B3#32 [(1#5, 0xF0F0F0F0#32), (2#5, 0xFF00FF00#32)] 3#5 0xFFF0FFF0#32 0x00001004#32 = true := by decide
theorem test_and_int17 : gives 0x0020F1B3#32 [(1#5, 0xF0F0F0F0#32), (2#5, 0xFF00FF00#32)] 3#5 0xF000F000#32 0x00001004#32 = true := by decide

/-! Control transfer: the CT vectors. -/

theorem test_jal_ct2 : gives 0xFFDFF0EF#32 [] 1#5 0x00001004#32 0x00000FFC#32 = true := by decide
theorem test_jal_ct5 : gives 0x7FFFF0EF#32 [] 1#5 0x00001004#32 0x00100FFE#32 = true := by decide
theorem test_jalr_ct6 : gives 0x000280E7#32 [(5#5, 0x00002001#32)] 1#5 0x00001004#32 0x00002000#32 = true := by decide
theorem test_jalr_ct7 : gives 0x004282E7#32 [(5#5, 0x00002000#32)] 5#5 0x00001004#32 0x00002004#32 = true := by decide
theorem test_beq_ct10 : gives 0x00208463#32 [(1#5, 0x00000005#32), (2#5, 0x00000005#32)] 1#5 0x00000005#32 0x00001008#32 = true := by decide
theorem test_beq_ct11 : gives 0x00208463#32 [(1#5, 0x00000005#32), (2#5, 0x00000006#32)] 1#5 0x00000005#32 0x00001004#32 = true := by decide
theorem test_bne_ct12 : gives 0xFE209EE3#32 [(1#5, 0x00000005#32), (2#5, 0x00000006#32)] 1#5 0x00000005#32 0x00000FFC#32 = true := by decide
theorem test_blt_ct13 : gives 0x0020C663#32 [(1#5, 0xFFFFFFFF#32), (2#5, 0x00000001#32)] 2#5 0x00000001#32 0x0000100C#32 = true := by decide
theorem test_bltu_ct14 : gives 0x0020E663#32 [(1#5, 0xFFFFFFFF#32), (2#5, 0x00000001#32)] 2#5 0x00000001#32 0x00001004#32 = true := by decide
theorem test_bge_ct15 : gives 0x0020D663#32 [(1#5, 0x00000007#32), (2#5, 0x00000007#32)] 1#5 0x00000007#32 0x0000100C#32 = true := by decide
theorem test_bge_ct16 : gives 0x0020D663#32 [(1#5, 0x80000000#32)] 2#5 0x00000000#32 0x00001004#32 = true := by decide
theorem test_bgeu_ct17 : gives 0x0020F663#32 [(2#5, 0xFFFFFFFF#32)] 1#5 0x00000000#32 0x00001004#32 = true := by decide
theorem test_bgeu_ct18 : gives 0x0020F663#32 [(1#5, 0x80000000#32)] 2#5 0x00000000#32 0x0000100C#32 = true := by decide

/-! Loads and stores: the LS vectors. -/

theorem test_lb_ls1 : gives 0x00308283#32 [(1#5, 0x00002000#32)] 5#5 0xFFFFFF80#32 0x00001004#32 = true := by decide
theorem test_lb_ls2 : gives 0x00208283#32 [(1#5, 0x00002000#32)] 5#5 0xFFFFFFFF#32 0x00001004#32 = true := by decide
theorem test_lbu_ls3 : gives 0x0010C283#32 [(1#5, 0x00002000#32)] 5#5 0x0000007F#32 0x00001004#32 = true := by decide
theorem test_lbu_ls12 : gives 0xFFF3C283#32 [(1#5, 0x00002000#32), (7#5, 0x00002004#32)] 5#5 0x00000080#32 0x00001004#32 = true := by decide
theorem test_lh_ls4 : gives 0x00009283#32 [(1#5, 0x00002000#32)] 5#5 0x00007F01#32 0x00001004#32 = true := by decide
theorem test_lh_ls7 : gives 0x00309283#32 [(1#5, 0x00002000#32)] 5#5 0xFFFF80FF#32 0x00001004#32 = true := by decide
theorem test_lhu_ls5 : gives 0x0020D283#32 [(1#5, 0x00002000#32)] 5#5 0x000080FF#32 0x00001004#32 = true := by decide
theorem test_lw_ls9 : gives 0x0030A283#32 [(1#5, 0x00002000#32)] 5#5 0x80FF7F01#32 0x00001004#32 = true := by decide
theorem test_lw_ls11 : gives 0x00432283#32 [(1#5, 0x00002000#32), (6#5, 0x00001FFC#32)] 5#5 0x80FF7F01#32 0x00001004#32 = true := by decide
theorem test_sb_ls13 : leaves 0x002081A3#32 [(1#5, 0x2000#32), (2#5, 0x12345678#32)] 0x78FF7F01#32 = true := by decide
theorem test_sb_ls14 : leaves 0x00208023#32 [(1#5, 0x2000#32), (2#5, 0xFFFFFFAA#32)] 0x80FF7FAA#32 = true := by decide
theorem test_sh_ls15 : leaves 0x00209023#32 [(1#5, 0x2000#32), (2#5, 0x0000BEEF#32)] 0x80FFBEEF#32 = true := by decide
theorem test_sh_ls17 : leaves 0x002091A3#32 [(1#5, 0x2000#32), (2#5, 0x0000BEEF#32)] 0xBEEF7F01#32 = true := by decide
theorem test_sw_ls18 : leaves 0x0020A123#32 [(1#5, 0x2000#32), (2#5, 0xDEADBEEF#32)] 0xDEADBEEF#32 = true := by decide
theorem test_sw_ls19 : leaves 0x0020A023#32 [(1#5, 0x2000#32), (2#5, 0x00000000#32)] 0x00000000#32 = true := by decide

/-! CSR instructions: the CSR vectors. -/

theorem test_csrrw_csr1 : csrGives 0x340312F3#32 [(6#5, 0x00000022#32)] 0x340#12 0x00000011#32 0x00000011#32 0x00000022#32 = true := by decide
theorem test_csrrw_csr16 : csrGives 0x340292F3#32 [(5#5, 0x00000055#32)] 0x340#12 0x00000066#32 0x00000066#32 0x00000055#32 = true := by decide
theorem test_csrrs_csr2 : csrGives 0x300322F3#32 [(6#5, 0x00000008#32)] 0x300#12 0x00001800#32 0x00001800#32 0x00001808#32 = true := by decide
theorem test_csrrs_csr12 : csrGives 0x305322F3#32 [(6#5, 0x00000003#32)] 0x305#12 0x00001100#32 0x00001100#32 0x00001100#32 = true := by decide
theorem test_csrrc_csr4 : csrGives 0x304332F3#32 [(6#5, 0x00000800#32)] 0x304#12 0x00000888#32 0x00000888#32 0x00000088#32 = true := by decide
theorem test_csrrwi_csr6 : csrGives 0x340FD2F3#32 [] 0x340#12 0x00000011#32 0x00000011#32 0x0000001F#32 = true := by decide
theorem test_csrrwi_csr7 : csrGives 0x340052F3#32 [] 0x340#12 0x00000011#32 0x00000011#32 0x00000000#32 = true := by decide
theorem test_csrrsi_csr8 : csrGives 0x30046073#32 [] 0x300#12 0x00000000#32 0x00000000#32 0x00000008#32 = true := by decide
theorem test_csrrsi_csr9 : csrGives 0x300062F3#32 [] 0x300#12 0x00000080#32 0x00000080#32 0x00000080#32 = true := by decide
theorem test_csrrci_csr10 : csrGives 0x300472F3#32 [] 0x300#12 0x00001888#32 0x00001888#32 0x00001880#32 = true := by decide
/-- CSR-11, CSR-13: `mtvec` keeps no low bits, `mepc` keeps them. -/
theorem test_csr11_csr13 :
    csrGives 0x30509073#32 [(1#5, 0x1003#32)] 0x305#12 0#32 0#32 0x1000#32 = true ∧
    csrGives 0x341312F3#32 [(6#5, 0x1003#32)] 0x341#12 0#32 0#32 0x1003#32 = true := by decide
/-- CSR-17, CSR-19, CSR-21: `mip` is read-only, an unimplemented address reads 0, `misa` reads the parameter. -/
theorem test_csr17_csr19_csr21 :
    csrGives 0x344312F3#32 [(6#5, 0xFFFFFFFF#32)] 0x344#12 0#32 0#32 0#32 = true ∧
    csrGives 0x7C0322F3#32 [(6#5, 0xFFFFFFFF#32)] 0x7C0#12 0#32 0#32 0#32 = true ∧
    gives 0x301023F3#32 [] 7#5 Config.default.misa 0x1004#32 = true := by decide

/-! Traps: the TR vectors, `mtvec` = 0x1100. -/

/-- The word, executed with this `mstatus` and `mepc`, leaves these values and goes to `pc`. -/
def trapGives (w mstatus mepc : Word) (mstatus' mepc' mcause' pc : Word) : Bool :=
  nextIs (execWord w { State.reset with mtvec := 0x1100#32, mstatus := mstatus, mepc := mepc }) fun t =>
    t.mstatus == mstatus' && t.mepc == mepc' && t.mcause == mcause' && t.pc == pc

theorem test_ecall_tr1 : trapGives 0x00000073#32 0x00000008#32 0x00000000#32 0x00000080#32 0x00001000#32 0x0000000B#32 0x00001100#32 = true := by decide
theorem test_ecall_tr3 : trapGives 0x00000073#32 0x00000000#32 0x00000000#32 0x00000000#32 0x00001000#32 0x0000000B#32 0x00001100#32 = true := by decide
theorem test_ebreak_tr2 : trapGives 0x00100073#32 0x00001888#32 0x00000000#32 0x00001880#32 0x00001000#32 0x00000003#32 0x00001100#32 = true := by decide
theorem test_mret_tr5 : trapGives 0x30200073#32 0x00000080#32 0x00001100#32 0x00000088#32 0x00001100#32 0x00000000#32 0x00001100#32 = true := by decide
theorem test_mret_tr7 : trapGives 0x30200073#32 0x00001808#32 0x00001100#32 0x00001880#32 0x00001100#32 0x00000000#32 0x00001100#32 = true := by decide
theorem test_fence_r330 : nextIs (execWord 0x0FF0000F#32 (regsAre [])) (fun t => t == (regsAre []).setPc 0x1004#32) = true := by decide
theorem test_default_r331 : nextIs (execWord 0x10500073#32 (regsAre [])) (fun t => t == (regsAre []).setPc 0x1004#32) = true := by
  decide

/-! ### One step and one clock cycle -/

/-- The reset state with these words from 0x1000 on, and registers as `regsAre` has them. -/
def program (ws : List Word) (l : List (RegIdx × Word)) : State :=
  ws.zipIdx.foldl (fun s p => s.placeWord (0x1000#32 + BitVec.ofNat 32 (4 * p.2)) p.1) (regsAre l)

/-- The state after two clock cycles: the first word of the program is in EX, the second in ID. -/
def inEx (s : State) : State :=
  match State.cycles 2 s with
  | .next t => t
  | .fault _ => s
  | .refused _ => s

/-- The enables of the IRQ vectors: `mtvec` = 0x1100, `mstatus` = 8, `mie` = 0x880. -/
def armed (s : State) : State := { s with mtvec := 0x1100#32, mstatus := 0x8#32, mie := 0x880#32 }

/-- The reset state fetches the placed word and one step runs it (CSR-20's clock: EX is two cycles after reset, R405). -/
theorem test_step_placed_word :
    nextIs (step (State.reset.withFetchWord 32 0xC00022F3)) (fun t => t.reg 5#5 == 2#32 && t.pc == 0x1004#32) = true := by
  decide
/-- RST-1 and the PC of a program's first step (R400). -/
theorem test_reset : State.reset.pc = 0x1000#32 ∧ State.reset.pipe = {} ∧ State.reset.csrRead 0x300#12 = 0#32 ∧
    State.reset.csrRead 0xC00#12 = 0#32 := by decide
/-- TR-9, CT-5: a misaligned fetch stops (R122). -/
theorem test_step_misaligned :
    (match step { State.reset with pc := 0x100FFE#32 } with | .fault .misalignedFetch => true | _ => false) = true := by decide

/-- IRQ-1: X = addi x2, x0, 2 in EX with the external line high. -/
theorem test_irq1_step :
    nextIs (step { armed (program [0x00100093#32, 0x00200113#32] []) with
      pc := 0x1004#32, front := { inEx := true }, inputs := [{ irqExt := true }] })
      (fun t => t.reg 2#5 == 2#32 && t.mepc == 0x1008#32 && t.mcause == 0x8000000B#32 && t.mstatus == 0x80#32 && t.pc == 0x1100#32) =
      true := by decide
/-- IRQ-2: a taken branch, the target in `mepc`; IRQ-9: the timer alone. -/
theorem test_irq2_step :
    nextIs (step { armed (program [0x00000463#32] []) with front := { inEx := true }, inputs := [{ irqTimer := true }] })
      (fun t => t.mepc == 0x1008#32 && t.mcause == 0x80000007#32) = true := by decide
/-- IRQ-5: ECALL is pre-empted. -/
theorem test_irq5_step :
    nextIs (step { armed (program [0x00000073#32] []) with front := { inEx := true }, inputs := [{ irqExt := true }] })
      (fun t => t.mepc == 0x1000#32 && t.mcause == 0x8000000B#32) = true := by decide
/-- IRQ-8: both lines, `IRQ_TIMER_FIRST`. -/
theorem test_irq8_step :
    nextIs (step { armed (program [0x00200113#32] []) with
      cfg := { Config.default with irqTimerFirst := true }, front := { inEx := true }
      inputs := [{ irqExt := true, irqTimer := true }] })
      (fun t => t.mcause == 0x80000007#32 && t.reg 2#5 == 2#32) = true := by decide

/-- S1 and S2: a trap entry beside a CSR write in EX, one clock cycle. -/
theorem test_s1_cycle :
    nextIs (inEx { armed (program [0x341312F3#32] [(6#5, 0xABC0#32)]) with
      mepc := 0x1234#32, inputs := [{}, {}, { irqExt := true }] }).cycle
      (fun t => t.mepc == 0x1004#32 && t.mcause == 0x8000000B#32 && t.mstatus == 0x80#32 && t.pipe.exMem.csrRdata == 0x1234#32) =
      true := by decide
theorem test_s2_cycle :
    nextIs (inEx { armed (program [0x340312F3#32] [(6#5, 0xABC0#32)]) with
      mscratch := 0x1234#32, inputs := [{}, {}, { irqExt := true }] }).cycle
      (fun t => t.mscratch == 0xABC0#32 && t.mepc == 0x1004#32) = true := by decide
/-- S5: the trap goes to the snapshot's `mtvec`, the write to `mtvec` lands. -/
theorem test_s5_cycle :
    nextIs (inEx { armed (program [0x305312F3#32] [(6#5, 0x1200#32)]) with inputs := [{}, {}, { irqExt := true }] }).cycle
      (fun t => t.mtvec == 0x1200#32 && t.pc == 0x1100#32) = true := by decide
/-- H4: the load-use stall; H11: the spurious one of R431. -/
theorem test_h4_stall : (inEx (program [0x00052083#32, 0x00108133#32] [])).loadUse = true ∧
    (inEx (program [0x00052283#32, 0x005003B7#32] [])).loadUse = true ∧
    (inEx (program [0x00052003#32, 0x00000133#32] [])).loadUse = false := by decide
/-- H15: a taken branch discards the two instructions behind it. -/
theorem test_h15_flush :
    nextIs (inEx (program [0x00000663#32, 0x00100093#32] [])).cycle
      (fun t => t.pc == 0x100C#32 && !t.pipe.ifId.valid && !t.pipe.idEx.valid) = true := by decide
/-- H19: with `imem_valid` = 0 the PC holds and IF emits a bubble. -/
theorem test_h19_hold :
    nextIs ({ program [0x00100093#32] [] with inputs := [{ imemValid := false }] } : State).cycle
      (fun t => t.pc == 0x1000#32 && !t.pipe.ifId.valid) = true := by decide

/-! The pseudo-instructions (R181): `li` in one and two instructions, `ret`. -/
theorem test_pseudo :
    (Pseudo.li 5#5 0x12345FFF#32).expand = [.lui 5#5 0x12346#20, .addi 5#5 5#5 0xFFF#12] ∧
    (Pseudo.li 5#5 0xFFFFF800#32).expand = [.addi 5#5 0#5 0x800#12] ∧
    Pseudo.ret.expand = [.jalr 0#5 1#5 0#12] := by decide
/-! The assembler lines of R180, from the Examples of R255, R289 and R313. -/
theorem test_asmLine :
    (asmLine 0x100#32 (.jal 1#5 16#21)).2 = [.reg 1#5, .label 0x110#32] ∧
    (asmLine 0#32 (.sw 1#5 2#5 (-4))).2 = [.reg 2#5, .mem (-4) 1#5] ∧
    (asmLine 0#32 (.csrrw 5#5 0x340#12 6#5)).2 = [.reg 5#5, .csr 0x340#12, .reg 6#5] := by decide

/-! ### Witnesses: states and operands that meet the hypotheses of each obligation that has hypotheses -/

/-- A Bool test of the next state gives the next state. -/
theorem next_with {r : Host.Outcome State Fault Refusal} (P : State → Prop) [DecidablePred P]
    (h : nextIs r (fun t => decide (P t)) = true) : ∃ t, r = .next t ∧ P t := by
  cases r with
  | next t => exact ⟨t, rfl, of_decide_eq_true h⟩
  | fault f => cases h
  | refused f => cases h

/-- A state whose MEM/WB entry writes `rd` from the source `sel`. -/
def writingBack (rd : RegIdx) (sel : WbSel) : State :=
  { State.reset with pipe := { memWb := {
      valid := true, rd := rd, regWrite := true, wbSel := sel, aluResult := 1#32, memData := 2#32, pc4 := 3#32, csrRdata := 4#32 } } }

/-- A state whose EX/MEM entry is a store of width `f3` to address `a`. -/
def storing (f3 : BitVec 3) (a : Word) : State :=
  { State.reset with pipe := { exMem := {
      valid := true, memWrite := true, funct3 := f3, aluResult := a, storeData := 0x11223344#32 } } }

/-- A platform whose word 0x800 (byte address 0x2000) is of this kind. -/
def onBus (kind : RegionKind) (s : State) : State :=
  { s with cfg := { s.cfg with bus := [{ base := 0x800, size := 1, kind := kind }] } }

/-- The registers of the load and store witnesses: x1 = 0x2000, x2 a word whose bytes and halves are negative. -/
def basePtr : State := regsAre [(1#5, 0x2000#32), (2#5, 0xA1B2C3D4#32)]

theorem witness_DecodeOfEncode : (Instr.jal 1#5 (-4)).wellFormed = true ∧ (Instr.beq 1#5 2#5 4094#13).wellFormed = true ∧
    (Instr.addi 1#5 0#5 0x800#12).wellFormed = true := by decide

theorem witness_EncodeOfDecode : decodeWord 0xFE209EE3#32 = .ok (.bne 1#5 2#5 (-4)) ∧ decodeWord 0x8330000F#32 =
    .ok (.fence 0#5 0#5 8#4 3#4 3#4) := by decide

theorem witness_RecognisedByExactlyOneRow : ∃ r ∈ opcodeTable, rowMatches r 0x40C0D213#32 = true := by decide

theorem witness_DefaultArmDoesNothing : ∀ i, decodeWord 0x10500073#32 ≠ .ok i := by
  have h : decodeWord 0x10500073#32 = .error (.reservedSystem 0x10500073#32) := by decide
  rw [h]
  intro i hi
  cases hi

theorem witness_RegisterFileReadAfterWrite :
    (writingBack 5#5 .alu).curInputs.reset = false ∧ ∃ t, (writingBack 5#5 .alu).cycle = .next t ∧ t.reg 5#5 = 1#32 :=
  ⟨by decide, next_with _ (by decide)⟩

theorem witness_WriteBackCommitsSelectedValue :
    (∀ sel, (writingBack 31#5 sel).curInputs.reset = false) ∧
    (∃ t, (writingBack 31#5 .mem).cycle = .next t ∧ t.reg 31#5 = 2#32) ∧
    (∃ t, (writingBack 1#5 .pc4).cycle = .next t ∧ t.reg 1#5 = 3#32) ∧
    (∃ t, (writingBack 1#5 .csr).cycle = .next t ∧ t.reg 1#5 = 4#32) ∧
    (∃ t, (writingBack 0#5 .alu).cycle = .next t ∧ t.regs = State.reset.regs) :=
  ⟨by intro sel; cases sel <;> decide, next_with _ (by decide), next_with _ (by decide), next_with _ (by decide),
    next_with _ (by decide)⟩

theorem witness_CsrReadTable : 0xF15#12 ∉ [0x300#12, 0x301#12, 0x304#12, 0x305#12, 0x340#12, 0x341#12, 0x342#12, 0x343#12, 0x344#12,
    0xC00#12, 0xC80#12] := by decide

theorem witness_CsrWriteByAccessClass :
    0x344#12 ∉ [0x300#12, 0x304#12, 0x305#12, 0x340#12, 0x341#12, 0x342#12, 0x343#12] ∧
    0x7C0#12 ∉ [0x300#12, 0x304#12, 0x305#12, 0x340#12, 0x341#12, 0x342#12, 0x343#12] := by decide

/-- A CSR write beside an interrupt, a CSR write alone, ECALL and MRET in EX. -/
def exCsrIrq : State := inEx { armed (program [0x341312F3#32] [(6#5, 0xABC0#32)]) with inputs := [{}, {}, { irqExt := true }] }
def exCsr : State := inEx (armed (program [0x341312F3#32] [(6#5, 0xABC0#32)]))
def exEcall : State := inEx (armed (program [0x00000073#32] []))
def exMret : State := inEx (armed (program [0x30200073#32] []))

theorem witness_CsrArbitrationEveryCycle :
    (exCsrIrq.curInputs.reset = false ∧ ∃ t, exCsrIrq.cycle = .next t ∧ t.mepc = 0x1004#32) ∧
    (exCsr.curInputs.reset = false ∧ ∃ t, exCsr.cycle = .next t ∧ t.mepc = 0xABC0#32) :=
  ⟨⟨by decide, next_with _ (by decide)⟩, by decide, next_with _ (by decide)⟩

theorem witness_TrapEntryIsOneAtomicBundle :
    (exCsrIrq.curInputs.reset = false ∧ exCsrIrq.trapDecision exCsrIrq.curInputs = .entry 0x8000000B#32 0x1004#32 ∧
      ∃ t, exCsrIrq.cycle = .next t ∧ t.pc = 0x1100#32) ∧
    (exEcall.curInputs.reset = false ∧ exEcall.trapDecision exEcall.curInputs = .entry 0x0000000B#32 0x1000#32 ∧
      ∃ t, exEcall.cycle = .next t ∧ t.pc = 0x1100#32) :=
  ⟨⟨by decide, by decide, next_with _ (by decide)⟩, by decide, by decide, next_with _ (by decide)⟩

theorem witness_TrapReturnIsOneAtomicBundle :
    exMret.curInputs.reset = false ∧ exMret.trapDecision exMret.curInputs = .ret ∧
      ∃ t, exMret.cycle = .next t ∧ t.mstatus = 0x80#32 :=
  ⟨by decide, by decide, next_with _ (by decide)⟩

theorem witness_ResetGivesTheResetState : ({ exCsr with inputs := [{ reset := true, irqExt := true }] } : State).curInputs.reset = true := by
  decide

/-- A state that is not the reset state and meets the invariant of both levels. -/
theorem witness_StateInv : StateInv exCsrIrq := by unfold StateInv; decide

theorem witness_StateInvAtReset : StateInv exCsr := by unfold StateInv; decide

theorem witness_StepKeepsStateInv : StateInv exCsrIrq ∧ ∃ t, step exCsrIrq = .next t ∧ t.mepc = 0x1004#32 :=
  ⟨witness_StateInv, next_with _ (by decide)⟩

theorem witness_CycleKeepsStateInv : StateInv exCsrIrq ∧ ∃ t, exCsrIrq.cycle = .next t ∧ t.mip = 0x800#32 :=
  ⟨witness_StateInv, next_with _ (by decide)⟩

theorem witness_CycleCounterReadsTwoAtResetPc :
    (State.resetWith Config.default (program [0xC00022F3#32] []).imem [] [] 7).fetchWord Config.default.resetPc = 0xC00022F3#32 := by
  decide

theorem witness_ImmediateShiftResults :
    (opcodeOf 0x02A01013#32 = 0b0010011#7 ∧ funct3Of 0x02A01013#32 = 0b001#3 ∧ funct7Of 0x02A01013#32 ≠ 0b0000000#7) ∧
    (opcodeOf 0x02005013#32 = 0b0010011#7 ∧ funct3Of 0x02005013#32 = 0b101#3 ∧ funct7Of 0x02005013#32 ≠ 0b0000000#7 ∧
      funct7Of 0x02005013#32 ≠ 0b0100000#7) := by decide

theorem witness_JalLinksAndJumps : (0x100000#21).getLsbD 0 = false ∧ (0x0FFFFE#21).getLsbD 0 = false := by decide

theorem witness_JalrLinksAndJumps : opcodeOf 0x00001067#32 = 0b1100111#7 ∧ funct3Of 0x00001067#32 ≠ 0b000#3 := by decide

theorem witness_BranchesJumpOnTheirCondition : (0x1000#13).getLsbD 0 = false ∧ (0x0FFE#13).getLsbD 0 = false := by decide

theorem witness_ByteLoadResults : 0x2003#32 = basePtr.reg 1#5 + (3#12).signExtend 32 := by decide

theorem witness_HalfAndWordLoadResults : 0x1FFF#32 = basePtr.reg 1#5 + (0xFFF#12).signExtend 32 := by decide

theorem witness_AlignedLoadsReadLittleEndianBytes :
    0x2000#32 = basePtr.reg 1#5 + (0#12).signExtend 32 ∧ basePtr.target 0x2000#32 = .ram (wordAddr 0x2000#32) ∧
    (0x2000#32).toNat % 4 = 0 ∧
    0x2002#32 = basePtr.reg 1#5 + (2#12).signExtend 32 ∧ basePtr.target 0x2002#32 = .ram (wordAddr 0x2002#32) ∧
    (0x2002#32).toNat % 2 = 0 ∧
    0x2003#32 = basePtr.reg 1#5 + (3#12).signExtend 32 ∧ basePtr.target 0x2003#32 = .ram (wordAddr 0x2003#32) := by decide

/-- Main memory, a mirror of it, a device and a fallback value: no text among them. -/
theorem witness_ByteStoreResult :
    basePtr.dmem.wf ∧ basePtr.hitsText (basePtr.ea 1#5 3#12) = false ∧
    (onBus (.mirror 0x900#30) basePtr).hitsText (basePtr.ea 1#5 3#12) = false ∧
    (onBus .device basePtr).hitsText (basePtr.ea 1#5 3#12) = false ∧
    (onBus (.fallback 9#32) basePtr).hitsText (basePtr.ea 1#5 3#12) = false := by decide

theorem witness_HalfAndWordStoreResults :
    basePtr.dmem.wf ∧ basePtr.hitsText (basePtr.ea 1#5 2#12) = false ∧ (onBus .device basePtr).hitsText (basePtr.ea 1#5 1#12) = false := by
  decide

theorem witness_StoreIntoProgramTextIsRefused : (onBus .text basePtr).hitsText ((onBus .text basePtr).ea 1#5 3#12) = true ∧
    (onBus .text basePtr).hitsText ((onBus .text basePtr).ea 1#5 4#12) = false := by decide

theorem witness_StoreThenLoadReturnsTheValue :
    basePtr.dmem.wf ∧ 0x2000#32 = basePtr.ea 1#5 0#12 ∧ basePtr.target 0x2000#32 = .ram (wordAddr 0x2000#32) ∧
    (0x2000#32).toNat % 4 = 0 ∧ (∃ t, exec (.sw 1#5 2#5 0#12) basePtr = .next t ∧ t.ea 1#5 0#12 = 0x2000#32) ∧
    0x2002#32 = basePtr.ea 1#5 2#12 ∧ basePtr.target 0x2002#32 = .ram (wordAddr 0x2002#32) ∧ (0x2002#32).toNat % 2 = 0 ∧
    (∃ t, exec (.sh 1#5 2#5 2#12) basePtr = .next t ∧ t.ea 1#5 2#12 = 0x2002#32) ∧
    0x2003#32 = basePtr.ea 1#5 3#12 ∧ basePtr.target 0x2003#32 = .ram (wordAddr 0x2003#32) ∧
    (∃ t, exec (.sb 1#5 2#5 3#12) basePtr = .next t ∧ t.ea 1#5 3#12 = 0x2003#32) :=
  ⟨by decide, by decide, by decide, by decide, next_with _ (by decide), by decide, by decide, by decide, next_with _ (by decide),
    by decide, by decide, next_with _ (by decide)⟩

theorem witness_ZeroOperandSetClearKeepsCsrs :
    exCsr.mtvec &&& 0x3#32 = 0#32 ∧ exCsr.reg 7#5 = 0#32 ∧
    (∃ t, exec (.csrrs 5#5 0x305#12 7#5) exCsr = .next t ∧ t.reg 5#5 = 0x1100#32) ∧
    (∃ t, exec (.csrrc 5#5 0x300#12 0#5) exCsr = .next t ∧ t.reg 5#5 = 8#32) ∧
    (∃ t, exec (.csrrsi 5#5 0x304#12 0#5) exCsr = .next t ∧ t.reg 5#5 = 0x880#32) ∧
    (∃ t, exec (.csrrci 5#5 0xC00#12 0#5) exCsr = .next t ∧ t.reg 5#5 = 2#32) :=
  ⟨by decide, by decide, next_with _ (by decide), next_with _ (by decide), next_with _ (by decide), next_with _ (by decide)⟩

/-- The interrupt's state, the instruction `w` in EX and drained. -/
def irqAt (w : Word) : State := { armed (program [w] []) with front := { inEx := true }, inputs := [{ irqExt := true }] }

theorem witness_InterruptFollowsOrdinaryInstruction :
    (irqAt 0x008002EF#32).drained ∧ (irqAt 0x008002EF#32).front.inEx = true ∧ (irqAt 0x008002EF#32).curInputs.reset = false ∧
    alignedPc (irqAt 0x008002EF#32).pc = true ∧
    decodeWord ((irqAt 0x008002EF#32).fetchWord (irqAt 0x008002EF#32).pc) = .ok (.jal 5#5 8#21) ∧
    (irqAt 0x008002EF#32).interrupt (irqAt 0x008002EF#32).curInputs = some 0x8000000B#32 ∧
    ∃ t, exec (.jal 5#5 8#21) (irqAt 0x008002EF#32) = .next t ∧ t.pc = 0x1008#32 :=
  ⟨by unfold State.drained; decide, by decide, by decide, by decide, by decide, by decide, next_with _ (by decide)⟩

theorem witness_InterruptPreemptsTrapClass :
    (irqAt 0x00000073#32).drained ∧ (irqAt 0x00000073#32).front.inEx = true ∧ (irqAt 0x00000073#32).curInputs.reset = false ∧
    alignedPc (irqAt 0x00000073#32).pc = true ∧
    decodeWord ((irqAt 0x00000073#32).fetchWord (irqAt 0x00000073#32).pc) = .ok .ecall ∧
    decodeWord ((irqAt 0x00100073#32).fetchWord (irqAt 0x00100073#32).pc) = .ok .ebreak ∧
    decodeWord ((irqAt 0x30200073#32).fetchWord (irqAt 0x30200073#32).pc) = .ok .mret ∧
    (irqAt 0x00000073#32).interrupt (irqAt 0x00000073#32).curInputs = some 0x8000000B#32 := by unfold State.drained; decide

theorem witness_InterruptPendingCondition :
    (armed State.reset).interrupt { irqExt := true, irqTimer := true } = some 0x8000000B#32 ∧
    (armed State.reset).interrupt { irqTimer := true } = some 0x80000007#32 ∧ State.reset.interrupt { irqExt := true } = none := by decide

/-- `lw x5, 0(x1)` at the PC; the front end empty, one cycle away, or ready. -/
def lwAtPc (f : FrontEnd) : State := { program [0x0000A283#32] [(1#5, 0x2000#32)] with front := f }

theorem witness_StepRunsTheDecodedInstruction :
    ((lwAtPc {}).drained ∧ (lwAtPc { inId := true }).drained ∧ (lwAtPc { inEx := true }).drained) ∧ (lwAtPc {}).inputs = [] ∧
    (lwAtPc { inId := true }).inputs = [] ∧ (lwAtPc { inEx := true }).inputs = [] ∧ alignedPc (lwAtPc {}).pc = true ∧
    0x83#8 = (lwAtPc {}).imem.read (lwAtPc {}).pc.toNat ∧ 0xA2#8 = (lwAtPc {}).imem.read ((lwAtPc {}).pc.toNat + 1) ∧
    0x00#8 = (lwAtPc {}).imem.read ((lwAtPc {}).pc.toNat + 2) ∧ 0x00#8 = (lwAtPc {}).imem.read ((lwAtPc {}).pc.toNat + 3) ∧
    decode (0x83#8 :: 0xA2#8 :: 0x00#8 :: 0x00#8 :: [0x13#8]) = .ok (.lw 5#5 1#5 0#12, [0x13#8]) := by unfold State.drained; decide

/-- ECALL in EX with a line high but MIE = 0. -/
def maskedEcall : State := { irqAt 0x00000073#32 with mstatus := 0#32 }

theorem witness_StepInExRunsTheInstruction :
    maskedEcall.drained ∧ maskedEcall.front.inEx = true ∧ maskedEcall.curInputs.reset = false ∧ alignedPc maskedEcall.pc = true ∧
    decodeWord (maskedEcall.fetchWord maskedEcall.pc) = .ok .ecall ∧ maskedEcall.interrupt maskedEcall.curInputs = none := by
  unfold State.drained; decide

theorem witness_MisalignedFetchStops :
    ({ State.reset with pc := 0x100FFE#32 } : State).drained ∧ ({ State.reset with pc := 0x100FFE#32 } : State).inputs = [] ∧
    alignedPc ({ State.reset with pc := 0x100FFE#32 } : State).pc = false := by unfold State.drained; decide

theorem witness_PlacedWordIsFetched : exCsr.imem.wf := by decide

/-- The pipeline full: `add x2, x1, x1` in EX, its producer `lw x1, 0(x10)` in MEM/WB after the stall, a reader of x2 in ID. -/
def fullPipe : State :=
  match State.cycles 4 (program [0x00052083#32, 0x00108133#32, 0x002101B3#32] [(10#5, 0x2000#32)]) with
  | .next t => t
  | .fault _ => State.reset
  | .refused _ => State.reset

theorem witness_PipeInv : PipeInv fullPipe := by
  constructor <;> (try unfold State.operandCurrent) <;> decide

theorem witness_fullPipe : fullPipe.pipe.idEx.valid = true ∧ fullPipe.pipe.ifId.valid = true ∧ fullPipe.pipe.memWb.valid = true ∧
    fullPipe.exA = 0x80FF7F01#32 := by decide

theorem witness_CycleKeepsPipeInv : PipeInv fullPipe ∧ ∃ t, fullPipe.cycle = .next t ∧ t.pipe.exMem.rd = 2#5 :=
  ⟨witness_PipeInv, next_with _ (by decide)⟩

theorem witness_ForwardedOperandsAreCurrent : PipeInv fullPipe ∧ fullPipe.pipe.idEx.valid = true := ⟨witness_PipeInv, by decide⟩

theorem witness_CycleRefinesInstructionLevel : PipeInv fullPipe ∧ fullPipe.curInputs.reset = false := ⟨witness_PipeInv, by decide⟩

theorem witness_StepIsARunOfThePipeline :
    PipeInv fullPipe ∧ (∀ i ∈ fullPipe.inputs, i.reset = false) ∧ ∃ t, step fullPipe = .next t ∧ t.reg 2#5 = 0x01FEFE02#32 :=
  ⟨witness_PipeInv, by decide, next_with _ (by decide)⟩

/-- `lw x1, 0(x10)` in EX and its consumer in ID. -/
def loadUsePipe : State := inEx (program [0x00052083#32, 0x00108133#32] [(10#5, 0x2000#32)])

theorem witness_LoadUseStallsExactlyOneCycle :
    loadUsePipe.curInputs.reset = false ∧ loadUsePipe.loadUse = true ∧ loadUsePipe.flush loadUsePipe.curInputs = false ∧
    ∃ t, loadUsePipe.cycle = .next t ∧ t.pipe.idEx.valid = false :=
  ⟨by decide, by decide, by decide, next_with _ (by decide)⟩

/-- A taken branch in EX, alone and with an interrupt. -/
def branchPipe (inp : Inputs) : State := inEx { armed (program [0x00000663#32] []) with inputs := [{}, {}, inp] }

theorem witness_TakenJumpFlushes :
    ((branchPipe {}).curInputs.reset = false ∧ (branchPipe {}).exJumpReq = true ∧
      (branchPipe {}).trapDecision (branchPipe {}).curInputs = .none ∧ ∃ t, (branchPipe {}).cycle = .next t ∧ t.pc = 0x100C#32) ∧
    ((branchPipe { irqExt := true }).exJumpReq = true ∧ ∃ t, (branchPipe { irqExt := true }).cycle = .next t ∧ t.mepc = 0x100C#32) :=
  ⟨⟨by decide, by decide, by decide, next_with _ (by decide)⟩, by decide, next_with _ (by decide)⟩

theorem witness_OnlyTheStoreInMemWrites :
    (storing 0b001#3 0x2002#32).dmem.wf ∧ (storing 0b001#3 0x2002#32).curInputs.reset = false ∧
    (∃ t, (storing 0b001#3 0x2002#32).cycle = .next t ∧ t.dmem = [(0x2002, 0x44#8), (0x2003, 0x33#8)]) ∧
    (onBus .device (storing 0b000#3 0x2001#32)).curInputs.reset = false ∧
    (∃ t, (onBus .device (storing 0b000#3 0x2001#32)).cycle = .next t ∧ t.dmem = []) :=
  ⟨by decide, by decide, next_with _ (by decide), by decide, next_with _ (by decide)⟩

theorem witness_WhoMayChangeWhat :
    (∃ t, exec (.lw 5#5 1#5 0#12) basePtr = .next t ∧ t.reg 5#5 = 0x80FF7F01#32) ∧
    (∃ t, exec .ecall basePtr = .next t ∧ t.mcause = 0xB#32) :=
  ⟨next_with _ (by decide), next_with _ (by decide)⟩

theorem witness_LoadImmediateExpansionLoads : (5#5 : RegIdx) ≠ 0#5 := by decide

/-- The word of WFI in EX, with an interrupt pending and with MIE = 0. -/
def maskedWfi : State := { irqAt 0x10500073#32 with mstatus := 0#32 }

theorem witness_UnrecognisedWordAtAStep :
    ((irqAt 0x10500073#32).drained ∧ (irqAt 0x10500073#32).front.inEx = true ∧ (irqAt 0x10500073#32).curInputs.reset = false ∧
      alignedPc (irqAt 0x10500073#32).pc = true ∧ (irqAt 0x10500073#32).fetchWord (irqAt 0x10500073#32).pc = 0x10500073#32 ∧
      (irqAt 0x10500073#32).interrupt (irqAt 0x10500073#32).curInputs = some 0x8000000B#32) ∧
    (maskedWfi.drained ∧ maskedWfi.front.inEx = true ∧ maskedWfi.curInputs.reset = false ∧ alignedPc maskedWfi.pc = true ∧
      maskedWfi.fetchWord maskedWfi.pc = 0x10500073#32 ∧ maskedWfi.interrupt maskedWfi.curInputs = none) ∧
    ∀ i, decodeWord 0x10500073#32 ≠ .ok i :=
  ⟨by unfold State.drained; decide, by unfold State.drained; decide, witness_DefaultArmDoesNothing⟩

end Sys2Proof.Tests
end

section
/-! SUPPORT. The forms a completed instruction's next state can take, said once: the frame of every instruction and the invariant of the
instruction level are read off from it. The classes are those of the control vector (30_encoding.md R162). -/

namespace Sys2Proof.Machine

/-- The next states of a completed instruction, by its class in the control vector: only a store writes memory, only a CSR instruction
the CSR file, only the trap class enters a trap or returns from one; every other instruction writes a register, counts a device
read or jumps. -/
inductive Effect (s : State) (i : Instr) : State → Prop where
  | jump (next : Word) : Effect s i (s.setPc next)
  | write (rd : RegIdx) (v next : Word) : Effect s i ((s.setReg rd v).setPc next)
  | load (ea : Word) (rd : RegIdx) (v : Word) : Effect s i ((s.afterBusRead ea).retire rd v)
  | store (h : (ctrlOf i).memWrite = true) (f3 : BitVec 3) (ea v : Word) : Effect s i (s.storeAt f3 ea v).advance
  | csr (h : (ctrlOf i).csrWrite = true) (op : CsrOp) (rd : RegIdx) (a : CsrAddr) (v : Word) :
      Effect s i (s.csrModify op rd a v)
  | trap (h : (ctrlOf i).sys ≠ .none) (cause : Word) : Effect s i (s.takeTrap s cause s.pc)
  | mret (h : (ctrlOf i).sys ≠ .none) : Effect s i s.trapReturn

/-- A branch moves the PC only (R250). -/
theorem effect_of_execBranch {i : Instr} {f3 : BitVec 3} {rs1 rs2 : RegIdx} {off : BitVec 13} {s t : State}
    (h : execBranch f3 rs1 rs2 off s = .next t) : Effect s i t := by
  obtain rfl := Host.Outcome.next.inj h
  split
  · exact .jump _
  · exact .jump _

/-- A store that completes is one bus write (R280). -/
theorem effect_of_execStore {i : Instr} (hi : (ctrlOf i).memWrite = true) {f3 : BitVec 3} {rs1 rs2 : RegIdx} {imm : BitVec 12}
    {s t : State} (h : execStore f3 rs1 rs2 imm s = .next t) : Effect s i t := by
  unfold execStore at h
  split at h
  · cases h
  · obtain rfl := Host.Outcome.next.inj h
    exact .store hi _ _ _

/-- Every instruction that completes has one of the effects. -/
theorem effect_of_exec {i : Instr} {s t : State} (h : exec i s = .next t) : Effect s i t := by
  cases i
  case beq | bne | blt | bge | bltu | bgeu => exact effect_of_execBranch h
  case sb | sh | sw => exact effect_of_execStore rfl h
  all_goals obtain rfl := Host.Outcome.next.inj h
  case lb | lh | lw | lbu | lhu => exact .load _ _ _
  case csrrw | csrrs | csrrc | csrrwi | csrrsi | csrrci => exact .csr rfl _ _ _ _
  case ecall | ebreak => exact .trap (by decide) _
  case mret => exact .mret (by decide)
  case fence => exact .jump _
  all_goals exact .write _ _ _

end Sys2Proof.Machine
end

section
/-! SUPPORT. The fields of the state after a clock cycle that commits, and the laws of the CSR arbitration (10_state.md R55). -/

namespace Sys2Proof.Machine

/-- A clock cycle that answers a next state is a reset or the commit of every stage. -/
theorem State.cycle_eq_next {s t : State} (h : s.cycle = .next t) :
    (s.curInputs.reset = true ∧ t = s.afterReset) ∨ (s.curInputs.reset = false ∧ t = s.commit s.curInputs) := by
  unfold State.cycle at h
  split at h
  next hr => exact .inl ⟨hr, (Host.Outcome.next.inj h).symm⟩
  next hr =>
    split at h
    · cases h
    · split at h
      · cases h
      · exact .inr ⟨by simpa using hr, (Host.Outcome.next.inj h).symm⟩

/-- A clock cycle without reset that answers a next state commits every stage. -/
theorem State.cycle_eq_commit {s t : State} (hr : s.curInputs.reset = false) (h : s.cycle = .next t) :
    t = s.commit s.curInputs := by
  rcases State.cycle_eq_next h with ⟨hr', -⟩ | ⟨-, ht⟩
  · simp [hr] at hr'
  · exact ht

section commit
variable (s : State) (inp : Inputs)
@[simp] theorem State.commit_pc : (s.commit inp).pc = s.nextPc inp := rfl
@[simp] theorem State.commit_mip : (s.commit inp).mip = mipOf inp := rfl
@[simp] theorem State.commit_ifId : (s.commit inp).pipe.ifId = s.nextIfId inp := rfl
@[simp] theorem State.commit_idEx : (s.commit inp).pipe.idEx = s.nextIdEx inp := rfl
theorem State.commit_csrReg (q : CsrReg) : (s.commit inp).csrReg q = s.nextCsr inp q := by cases q <;> rfl
@[simp] theorem State.commit_mcycle64 : (s.commit inp).mcycle64 = s.mcycle64 + 1#64 := by
  simp [State.commit, State.tick, State.pipeEdge, State.csrEdge]
@[simp] theorem State.commit_imem : (s.commit inp).imem = s.imem := by
  simp [State.commit, State.tick, State.pipeEdge, State.csrEdge]
@[simp] theorem State.commit_dmem : (s.commit inp).dmem = (s.memEdge s.pipe.exMem).dmem := by
  simp [State.commit, State.tick, State.pipeEdge, State.csrEdge]
theorem State.commit_regs : (s.commit inp).regs = wbRegs s.regs s.pipe.memWb := by
  simp [State.commit, State.tick, State.pipeEdge, State.csrEdge, State.commitWb_regs]
end commit

/-- Without a write of the trap controller a CSR takes the CPU's write if there is one. -/
@[simp] theorem arbitrate_none (cpu : Option Word) (old : Word) : arbitrate none cpu old = cpu.getD old := by
  cases cpu <;> rfl
/-- The trap controller's write is dominant. -/
@[simp] theorem arbitrate_some (v : Word) (cpu : Option Word) (old : Word) : arbitrate (some v) cpu old = v := rfl

/-- The bits of `mip` after a cycle (R48): 11 and 7 are the lines, every other bit is 0. -/
theorem getLsbD_mipOf (inp : Inputs) (k : Nat) :
    (mipOf inp).getLsbD k = (decide (k = 11) && inp.irqExt || decide (k = 7) && inp.irqTimer) := by
  by_cases hk : k < 32
  · have bits : ∀ (ext tim : Bool) (k : Fin 32), (mipOf { irqExt := ext, irqTimer := tim }).getLsbD k =
        (decide (k.val = 11) && ext || decide (k.val = 7) && tim) := by decide
    exact bits inp.irqExt inp.irqTimer ⟨k, hk⟩
  · rw [BitVec.getLsbD_of_ge _ _ (Nat.le_of_not_lt hk)]
    simp [show k ≠ 11 by omega, show k ≠ 7 by omega]

end Sys2Proof.Machine
end

section
/-! SUPPORT. The state invariant (`StateInv`): each operation of either level keeps it. -/

namespace Sys2Proof.Machine

/-- The invariant reads the memories, `mtvec` and `mip` only. -/
theorem StateInv.congr {s t : State} (h : StateInv s) (hi : t.imem = s.imem) (hd : t.dmem = s.dmem) (hv : t.mtvec = s.mtvec)
    (hm : t.mip = s.mip) : StateInv t := by
  unfold StateInv
  rw [hi, hd, hv, hm]
  exact h

/-- `mip` after a cycle has no bit but 11 and 7 (R48). -/
theorem mipOf_masked (inp : Inputs) : mipOf inp &&& ~~~0x880#32 = 0#32 := by
  have lines : ∀ ext tim : Bool, mipOf { irqExt := ext, irqTimer := tim } &&& ~~~0x880#32 = 0#32 := by decide
  exact lines inp.irqExt inp.irqTimer

/-- What `csrLegal` gives `mtvec` has bits 1:0 clear (D14). -/
theorem csrLegal_mtvec_masked {a : CsrAddr} {v v' : Word} (h : csrLegal a v = some (.mtvec, v')) : v' &&& 0x3#32 = 0#32 := by
  unfold csrLegal at h
  split at h <;> simp at h
  rw [← h, BitVec.and_assoc]
  exact BitVec.and_zero

/-- The CPU write request keeps bits 1:0 of `mtvec` clear. -/
theorem cpuWrite_mtvec_masked {s : State} {v : Word} (h : cpuWrite s.exCpuWrite .mtvec = some v) : v &&& 0x3#32 = 0#32 := by
  unfold cpuWrite State.exCpuWrite at h
  split at h
  next r v' hw =>
    split at h <;> cases h
    next hr =>
      subst hr
      split at hw
      · exact csrLegal_mtvec_masked hw
      · cases hw
  next => cases h

/-- The trap controller never writes `mtvec` (R365). -/
@[simp] theorem State.trapWrite_mtvec (s : State) (td : TrapDecision) : s.trapWrite td .mtvec = none := by cases td <;> rfl

/-- A cycle keeps bits 1:0 of `mtvec` clear. -/
theorem State.nextCsr_mtvec_masked {s : State} (h : s.mtvec &&& 0x3#32 = 0#32) (inp : Inputs) :
    s.nextCsr inp .mtvec &&& 0x3#32 = 0#32 := by
  unfold State.nextCsr
  rw [State.trapWrite_mtvec, arbitrate_none]
  cases hw : cpuWrite s.exCpuWrite .mtvec with
  | none => exact h
  | some v => exact cpuWrite_mtvec_masked hw

/-- A CSR-instruction write keeps bits 1:0 of `mtvec` clear. -/
theorem State.csrWrite_mtvec_masked {s : State} (h : s.mtvec &&& 0x3#32 = 0#32) (a : CsrAddr) (v : Word) :
    (s.csrWrite a v).mtvec &&& 0x3#32 = 0#32 := by
  unfold State.csrWrite
  split
  next r v' hw =>
    cases r
    case mtvec => exact csrLegal_mtvec_masked hw
    all_goals exact h
  next => exact h

/-- The bus transaction of an entry keeps data memory canonical. -/
theorem State.memEdge_wf {s : State} (h : s.dmem.wf) (x : ExMem) : (s.memEdge x).dmem.wf := by
  rw [State.memEdge_dmem]
  split
  · exact State.storeAt_wf h _ _ _
  · exact h

theorem stateInv_reset : StateInv State.reset := by
  refine ⟨?_, ?_, ?_, ?_⟩ <;> decide

theorem StateInv.afterReset {s : State} (h : StateInv s) : StateInv s.afterReset := by
  obtain ⟨hi, hd, -, -⟩ := h
  exact ⟨hi, hd, BitVec.zero_and, BitVec.zero_and⟩

theorem StateInv.commit {s : State} (h : StateInv s) (inp : Inputs) : StateInv (s.commit inp) := by
  obtain ⟨hi, hd, hv, -⟩ := h
  refine ⟨?_, ?_, ?_, ?_⟩
  · rw [State.commit_imem]; exact hi
  · rw [State.commit_dmem]; exact State.memEdge_wf hd _
  · exact State.nextCsr_mtvec_masked hv inp
  · exact mipOf_masked inp

theorem StateInv.endCycle {s : State} (h : StateInv s) (inp : Inputs) (f : FrontEnd) : StateInv (s.endCycle inp f) := by
  obtain ⟨hi, hd, hv, -⟩ := h
  exact ⟨hi, hd, hv, mipOf_masked inp⟩

theorem StateInv.takeTrap {t : State} (h : StateInv t) (s : State) (cause epc : Word) : StateInv (s.takeTrap t cause epc) := h

theorem StateInv.settle {s : State} (h : StateInv s) : StateInv s.settle := by
  obtain ⟨hi, hd, hv, hm⟩ := h
  refine ⟨?_, ?_, ?_, ?_⟩
  · rw [State.settle_imem]; exact hi
  · rw [State.settle_dmem]; exact State.memEdge_wf hd _
  · rw [State.settle_mtvec]; exact hv
  · rw [State.settle_mip]; exact hm

/-- The effect of every instruction keeps the invariant. -/
theorem StateInv.effect {s t : State} {i : Instr} (h : StateInv s) (he : Effect s i t) : StateInv t := by
  obtain ⟨hi, hd, hv, hm⟩ := h
  cases he with
  | store _ f3 ea v => exact ⟨by simpa using hi, State.storeAt_wf hd _ _ _, by simpa using hv, by simpa using hm⟩
  | csr _ op rd a v =>
    exact ⟨by simpa using hi, by simpa using hd, State.csrWrite_mtvec_masked hv a _, by simpa using hm⟩
  | load ea rd v => exact StateInv.congr ⟨hi, hd, hv, hm⟩ (by simp) (by simp) (by simp) (by simp)
  | _ => exact ⟨hi, hd, hv, hm⟩

/-- Every fetched word, recognised or not, keeps the invariant. -/
theorem StateInv.execWord {s t : State} {w : Word} (h : StateInv s) (he : execWord w s = .next t) : StateInv t := by
  unfold Machine.execWord at he
  split at he
  next i _ => exact h.effect (effect_of_exec he)
  next => exact Host.Outcome.next.inj he ▸ h

/-- To go on from a next state there must be one. -/
theorem andThen_eq_next {r : Result} {f : State → State} {t : State} (h : andThen r f = .next t) :
    ∃ u, r = .next u ∧ f u = t := by
  cases r with
  | next u => exact ⟨u, rfl, Host.Outcome.next.inj h⟩
  | fault x => cases h
  | refused x => cases h

theorem StateInv.bubbleCycle {s t : State} {inp : Inputs} (h : StateInv s) (hc : s.bubbleCycle inp = .next t) : StateInv t := by
  unfold State.bubbleCycle at hc
  split at hc
  · cases hc
  · exact Host.Outcome.next.inj hc ▸ h.endCycle inp _

theorem StateInv.exCycle {s t : State} {inp : Inputs} (h : StateInv s) (hc : s.exCycle inp = .next t) : StateInv t := by
  unfold State.exCycle at hc
  dsimp only at hc
  split at hc
  next => cases hc
  next =>
    split at hc
    next cause _ =>
      split at hc
      next => exact Host.Outcome.next.inj hc ▸ (h.takeTrap s cause s.pc).endCycle inp _
      next =>
        obtain ⟨u, hu, rfl⟩ := andThen_eq_next hc
        exact ((h.execWord hu).takeTrap s cause u.pc).endCycle inp _
    next =>
      obtain ⟨u, hu, rfl⟩ := andThen_eq_next hc
      exact (h.execWord hu).endCycle inp _

theorem StateInv.instrCycle {s t : State} (h : StateInv s) (hc : s.instrCycle = .next t) : StateInv t := by
  unfold State.instrCycle at hc
  split at hc
  · exact Host.Outcome.next.inj hc ▸ h.afterReset
  · split at hc
    · exact h.exCycle hc
    · exact h.bubbleCycle hc

theorem StateInv.runToEx {n : Nat} {s t : State} (h : StateInv s) (hc : State.runToEx n s = .next t) : StateInv t := by
  induction n generalizing s with
  | zero => exact Host.Outcome.next.inj hc ▸ h
  | succ n ih =>
    unfold State.runToEx at hc
    split at hc
    · exact h.instrCycle hc
    · split at hc
      next u hu => exact ih (h.bubbleCycle hu) hc
      next => cases hc
      next => cases hc

/-- Settles O12: the reset values, and what a reset leaves of the memories. -/
theorem stateInvAtReset : Obligations.StateInvAtReset := ⟨stateInv_reset, fun _ h => h.afterReset⟩

/-- Settles O13: settling and each cycle up to the one in EX keep the invariant, by induction on the fuel. -/
theorem stepKeepsStateInv : Obligations.StepKeepsStateInv := by
  intro s t h hs
  unfold step at hs
  split at hs
  · exact Host.Outcome.next.inj hs ▸ h.afterReset
  · exact h.settle.runToEx hs

/-- Settles O14: a cycle is a reset or a commit, and both keep the invariant. -/
theorem cycleKeepsStateInv : Obligations.CycleKeepsStateInv := by
  intro s t h hc
  rcases State.cycle_eq_next hc with ⟨-, rfl⟩ | ⟨-, rfl⟩
  · exact h.afterReset
  · exact h.commit _

end Sys2Proof.Machine
end

section
/-! SUPPORT. The statements about the register file and the CSR arbitration in a clock cycle (10_state.md R30, R55;
60_exceptions.md R360). -/

namespace Sys2Proof.Machine

/-- A write back is at most one register write. -/
theorem wbRegs_eq_regWrite (rf : Vector Word 31) (m : MemWb) : ∃ i v, wbRegs rf m = regWrite rf i v := by
  unfold wbRegs
  split
  · exact ⟨m.rd, m.wbVal, rfl⟩
  · exact ⟨0#5, 0#32, rfl⟩

/-- The next value of each writable CSR, by what the trap controller does: an entry or a return decides the registers it writes, every
other one takes the CPU's write or keeps its value. -/
theorem State.nextCsr_cases (s : State) (inp : Inputs) (r : CsrReg) :
    s.nextCsr inp r =
      match s.trapDecision inp, r with
      | .entry _ _, .mstatus => mstatusOnEntry s.mstatus
      | .entry _ epc, .mepc => epc
      | .entry cause _, .mcause => cause
      | .ret, .mstatus => mstatusOnReturn s.mstatus
      | _, r => (cpuWrite s.exCpuWrite r).getD (s.csrReg r) := by
  unfold State.nextCsr
  cases s.trapDecision inp with
  | none => exact arbitrate_none _ _
  | entry cause epc =>
    cases r
    case mstatus | mepc | mcause => rfl
    all_goals exact arbitrate_none _ _
  | ret =>
    cases r
    case mstatus => rfl
    all_goals exact arbitrate_none _ _

/-- Settles O6: read after write is `regRead_regWrite`; a cycle commits the entry in MEM/WB, and ID reads past that commit. -/
theorem registerFileReadAfterWrite : Obligations.RegisterFileReadAfterWrite := by
  refine ⟨regRead_regWrite, fun s t hr hc => ?_⟩
  obtain rfl := State.cycle_eq_commit hr hc
  unfold State.reg
  rw [State.commit_regs]
  exact ⟨wbRegs_eq_regWrite _ _, rfRead_eq s⟩

/-- Settles O10: the commit gives each CSR its arbitrated next value, and the clock edge gives `mip` and the counter theirs. -/
theorem csrArbitrationEveryCycle : Obligations.CsrArbitrationEveryCycle := by
  intro s t hr hc
  obtain rfl := State.cycle_eq_commit hr hc
  exact ⟨fun r => (State.commit_csrReg s _ r).trans (State.nextCsr_cases s _ r), getLsbD_mipOf s.curInputs,
    State.commit_mcycle64 s _⟩

/-- Settles O39: the CSRs are those of `csrArbitrationEveryCycle`, and an entry flushes. -/
theorem trapEntryIsOneAtomicBundle : Obligations.TrapEntryIsOneAtomicBundle := by
  intro s t cause epc hr htd hc
  obtain ⟨hcsr, -, -⟩ := csrArbitrationEveryCycle s t hr hc
  rw [htd] at hcsr
  have hstatus : t.mstatus = mstatusOnEntry s.mstatus := hcsr .mstatus
  have hflush : s.flush s.curInputs = true := by simp [State.flush, htd]
  obtain rfl := State.cycle_eq_commit hr hc
  refine ⟨hcsr .mepc, hcsr .mcause, hstatus, ?_, ?_, ?_, ?_, ?_⟩
  · rw [hstatus]
    exact entryStatus_mstatusOnEntry _
  · simp [State.nextPc, htd]
  · simp [State.nextIfId, hflush]
  · simp [State.nextIdEx, hflush]
  · intro r hr'
    rcases hr' with rfl | rfl | rfl | rfl <;> exact hcsr _

end Sys2Proof.Machine
end

section
/-! SUPPORT. The statements about CSR addresses and CSR instructions (10_state.md R51 to R54; 43_system_csr.md R310 to R318). -/

namespace Sys2Proof.Machine

/-- Settles O8: the table by computation, the other addresses by the arms of `csrRead`. -/
theorem csrReadTable : Obligations.CsrReadTable := by
  intro s
  refine ⟨rfl, rfl, rfl, rfl, rfl, rfl, rfl, rfl, rfl, rfl, rfl, rfl, rfl, rfl, rfl, fun a ha => ?_⟩
  unfold State.csrRead
  split <;> simp at ha ⊢

/-- An address that is none of the seven writable ones has no legal write (R53). -/
theorem csrLegal_eq_none {a : CsrAddr} (ha : a ∉ [0x300#12, 0x304#12, 0x305#12, 0x340#12, 0x341#12, 0x342#12, 0x343#12])
    (v : Word) : csrLegal a v = none := by
  unfold csrLegal
  split <;> simp at ha ⊢

/-- Settles O9: the seven writable addresses by computation, the others by `csrLegal_eq_none`. -/
theorem csrWriteByAccessClass : Obligations.CsrWriteByAccessClass := by
  intro s v
  refine ⟨rfl, rfl, rfl, rfl, rfl, rfl, rfl, fun a ha => ?_⟩
  unfold State.csrWrite
  rw [csrLegal_eq_none ha]

/-- Every CSR address after a CSR instruction: the one it names reads its legalised new value, every other one as before. -/
theorem State.csrRead_csrModify (s : State) (op : CsrOp) (rd : RegIdx) (csr a : CsrAddr) (v : Word) :
    (s.csrModify op rd csr v).csrRead a =
      if a = csr then s.csrAfterWrite csr (csrNew op (s.csrRead csr) v) else s.csrRead a :=
  State.csrRead_csrWrite s csr a _

/-- An instruction that answers the common body of the CSR instructions has the results of one. -/
theorem modifiesCsr_of_csrModify {i : Instr} {s : State} {op : CsrOp} {rd : RegIdx} {csr : CsrAddr} {v : Word}
    (h : exec i s = .next (s.csrModify op rd csr v)) : ModifiesCsr i s rd csr (csrNew op (s.csrRead csr) v) := by
  have hreg : ∀ r, (s.csrModify op rd csr v).reg r =
      if r = 0#5 then 0#32 else if r = rd then s.csrRead csr else s.reg r := by
    intro r
    unfold State.reg
    rw [State.csrModify_regs, regRead_regWrite]
  refine ⟨_, h, by simp, ?_, ?_, ?_, ?_, ?_, by simp, by simp, by simp, by simp, by simp⟩
  · simp [hreg]
  · intro r hr
    rw [hreg]
    by_cases h0 : r = 0#5
    · simp [h0]
    · simp [h0, hr]
  · intro a
    rw [State.csrRead_csrModify, State.csrAfterWrite_eq]
    by_cases ha : a = csr
    · simp [ha]
    · simp [ha]
  · intro a; simp
  · intro a; simp

/-- Settles O34: each word has the shape of its instruction, and each meaning is the common body with its operation and operand. -/
theorem csrInstructionResults : Obligations.CsrInstructionResults := by
  intro s rd rs1 csr u
  have shape : ∀ (f3 : BitVec 3) (src : BitVec 5), opcodeOf (iType f3 0b1110011#7 rd src csr) = 0b1110011#7 ∧
      funct3Of (iType f3 0b1110011#7 rd src csr) = f3 ∧ rdOf (iType f3 0b1110011#7 rd src csr) = rd ∧
      rs1fOf (iType f3 0b1110011#7 rd src csr) = src ∧ csrOf (iType f3 0b1110011#7 rd src csr) = csr := fun f3 src =>
    ⟨opcode_iType .., funct3_iType .., rd_iType .., rs1_iType .., csr_iType ..⟩
  exact ⟨⟨decodeWord_of_shape (shape _ _), modifiesCsr_of_csrModify (op := .write) rfl⟩,
    ⟨decodeWord_of_shape (shape _ _), modifiesCsr_of_csrModify (op := .set) rfl⟩,
    ⟨decodeWord_of_shape (shape _ _), modifiesCsr_of_csrModify (op := .clear) rfl⟩,
    ⟨decodeWord_of_shape (shape _ _), modifiesCsr_of_csrModify (op := .write) rfl⟩,
    ⟨decodeWord_of_shape (shape _ _), modifiesCsr_of_csrModify (op := .set) rfl⟩,
    ⟨decodeWord_of_shape (shape _ _), modifiesCsr_of_csrModify (op := .clear) rfl⟩⟩

/-- Clearing bits 1:0 of a word that has them clear changes nothing. -/
theorem and_mask_of_low_clear {v : Word} (h : v &&& 0x3#32 = 0#32) : v &&& 0xFFFFFFFC#32 = v := by
  have whole : v &&& (0x3#32 ||| 0xFFFFFFFC#32) = v := BitVec.and_allOnes
  rwa [BitVec.and_or_distrib_left, h, BitVec.zero_or] at whole

/-- Writing back what an address reads changes nothing, when `mtvec[1:0]` is 0. -/
theorem State.csrAfterWrite_self {s : State} (h : s.mtvec &&& 0x3#32 = 0#32) (a : CsrAddr) :
    s.csrAfterWrite a (s.csrRead a) = s.csrRead a := by
  rw [State.csrAfterWrite_eq]
  split
  · split
    next ha => subst ha; exact and_mask_of_low_clear h
    next => rfl
  · rfl

/-- A CSR instruction whose new value is the old one changes no CSR. -/
theorem sameCsrs_csrModify_of_old {s : State} (h : s.mtvec &&& 0x3#32 = 0#32) {op : CsrOp} {rd : RegIdx} {csr : CsrAddr} {v : Word}
    (hold : csrNew op (s.csrRead csr) v = s.csrRead csr) : SameCsrs s (s.csrModify op rd csr v) := by
  intro a
  rw [State.csrRead_csrModify, hold, State.csrAfterWrite_self h]
  split
  next ha => rw [ha]
  next => rfl

/-- A set with a zero operand is the old value. -/
theorem csrNew_set_zero (old : Word) : csrNew .set old 0#32 = old := BitVec.or_zero
/-- A clear with a zero operand is the old value. -/
theorem csrNew_clear_zero (old : Word) : csrNew .clear old 0#32 = old := BitVec.and_allOnes

/-- Settles O35: the new value of each of the four is the old one. -/
theorem zeroOperandSetClearKeepsCsrs : Obligations.ZeroOperandSetClearKeepsCsrs := by
  intro s t rd rs1 csr hv h0 h
  rcases h with h | h | h | h <;> obtain rfl := Host.Outcome.next.inj h
  · exact sameCsrs_csrModify_of_old hv (by rw [h0, csrNew_set_zero])
  · exact sameCsrs_csrModify_of_old hv (by rw [h0, csrNew_clear_zero])
  · exact sameCsrs_csrModify_of_old hv (csrNew_set_zero _)
  · exact sameCsrs_csrModify_of_old hv (csrNew_clear_zero _)

end Sys2Proof.Machine
end

section
/-! SUPPORT. The frame of the instruction classes, and the first instruction after reset (10_state.md R47 to R54, 70_reset_and_hazards.md
R405). -/

namespace Sys2Proof.Machine

section frame
variable {i : Instr} {s t : State} (he : Effect s i t)
include he

/-- What no instruction changes. -/
theorem Effect.keeps_platform : t.cfg = s.cfg ∧ t.imem = s.imem ∧ t.mip = s.mip ∧ t.mcycle64 = s.mcycle64 ∧ t.pipe = s.pipe ∧
    t.inputs = s.inputs := by
  cases he <;> simp

/-- What only a CSR instruction changes (R365). -/
theorem Effect.keeps_other_csrs (hc : (ctrlOf i).csrWrite = false) :
    t.mie = s.mie ∧ t.mtvec = s.mtvec ∧ t.mscratch = s.mscratch ∧ t.mtval = s.mtval := by
  cases he with
  | csr h => simp [hc] at h
  | _ => simp

/-- What only a CSR instruction or the trap class changes. -/
theorem Effect.keeps_trap_csrs (hc : (ctrlOf i).csrWrite = false) (hs : (ctrlOf i).sys = .none) :
    t.mstatus = s.mstatus ∧ t.mepc = s.mepc ∧ t.mcause = s.mcause := by
  cases he with
  | csr h => simp [hc] at h
  | trap h => exact absurd hs h
  | mret h => exact absurd hs h
  | _ => simp

/-- What only a store changes. -/
theorem Effect.keeps_dmem (hm : (ctrlOf i).memWrite = false) : t.dmem = s.dmem := by
  cases he with
  | store h => simp [hm] at h
  | _ => simp
end frame

/-- Only the six CSR instructions have the CSR write in their control vector. -/
theorem csrWrite_eq_false {i : Instr} (h : ∀ rd a x, i ≠ .csrrw rd a x ∧ i ≠ .csrrs rd a x ∧ i ≠ .csrrc rd a x ∧
    i ≠ .csrrwi rd a x ∧ i ≠ .csrrsi rd a x ∧ i ≠ .csrrci rd a x) : (ctrlOf i).csrWrite = false := by
  cases i
  case csrrw rd a x | csrrs rd a x | csrrc rd a x | csrrwi rd a x | csrrsi rd a x | csrrci rd a x => simpa using h rd a x
  all_goals rfl

/-- Only ECALL, EBREAK and MRET are of the trap class. -/
theorem sys_eq_none {i : Instr} (he : i ≠ .ecall) (hb : i ≠ .ebreak) (hm : i ≠ .mret) : (ctrlOf i).sys = .none := by
  cases i
  case ecall | ebreak | mret => contradiction
  all_goals rfl

/-- Only the three stores have the memory write in their control vector. -/
theorem memWrite_eq_false {i : Instr} (h : ∀ x y m, i ≠ .sb x y m ∧ i ≠ .sh x y m ∧ i ≠ .sw x y m) :
    (ctrlOf i).memWrite = false := by
  cases i
  case sb x y m | sh x y m | sw x y m => simpa using h x y m
  all_goals rfl

/-- Settles O57: the frames of the effect of the instruction's class. -/
theorem whoMayChangeWhat : Obligations.WhoMayChangeWhat := by
  intro i s t h
  have he := effect_of_exec h
  obtain ⟨hcfg, himem, hmip, hcycle, hpipe, hinputs⟩ := he.keeps_platform
  refine ⟨hcfg, himem, hmip, hcycle, hpipe, hinputs, fun hcsr => ?_, fun hstore => he.keeps_dmem (memWrite_eq_false hstore)⟩
  have hc := csrWrite_eq_false hcsr
  obtain ⟨hmie, hmtvec, hmscratch, hmtval⟩ := he.keeps_other_csrs hc
  exact ⟨hmie, hmtvec, hmscratch, hmtval, fun h1 h2 h3 => he.keeps_trap_csrs hc (sys_eq_none h1 h2 h3)⟩

/-- `RESET_PC` is word-aligned (D19). -/
theorem alignedPc_resetPc (cfg : Config) : alignedPc cfg.resetPc = true := by
  unfold alignedPc Config.resetPc
  rw [field_low _ _ 0 2 (by decide)]
  rfl

/-- Under quiet inputs no interrupt is pending. -/
theorem State.interrupt_quiet (s : State) : s.interrupt {} = none := by simp [State.interrupt]

/-- A cycle of the front end's fill: an aligned fetch, no instruction in EX. -/
theorem State.bubbleCycle_aligned {s : State} (h : alignedPc s.pc = true) (inp : Inputs) :
    s.bubbleCycle inp = .next (s.endCycle inp (s.front.next false false inp.imemValid)) := by
  unfold State.bubbleCycle
  simp [h]

/-- Without an interrupt the cycle in which the instruction is in EX is its execution and the clock edge. -/
theorem State.exCycle_of_no_interrupt {s u : State} {inp : Inputs} (ha : alignedPc s.pc = true) (hi : s.interrupt inp = none)
    (hu : execWord (s.fetchWord s.pc) s = .next u) : ∃ f, s.exCycle inp = .next (u.endCycle inp f) := by
  unfold State.exCycle
  simp [ha, hi, hu, andThen]

/-- A bubble cycle of the run to EX. -/
theorem State.runToEx_of_bubble {s t : State} {n : Nat} (hr : s.curInputs.reset = false) (hf : s.front.inEx = false)
    (hb : s.bubbleCycle s.curInputs = .next t) : State.runToEx (n + 1) s = State.runToEx n t := by
  simp [State.runToEx, hr, hf, hb]

/-- The last cycle of the run to EX. -/
theorem State.runToEx_of_inEx {s : State} {n : Nat} (hr : s.curInputs.reset = false) (hf : s.front.inEx = true) :
    State.runToEx (n + 1) s = s.exCycle s.curInputs := by
  simp [State.runToEx, State.instrCycle, hr, hf]

/-- The reset state after the two cycles in which the front end fills under quiet inputs. -/
def State.filledReset (cfg : Config) (imem dmem : Memory) (n : Nat) : State :=
  { State.resetWith cfg imem dmem [] n with mcycle64 := 2#64, front := { inId := true, inEx := true } }

/-- From reset with no input scheduled, a step is two bubble cycles and the cycle in EX (R405). -/
theorem step_resetWith (cfg : Config) (imem dmem : Memory) (n : Nat) :
    step (State.resetWith cfg imem dmem [] n) = (State.filledReset cfg imem dmem n).exCycle {} := by
  have ha := alignedPc_resetPc cfg
  calc step (State.resetWith cfg imem dmem [] n)
      = State.runToEx 3 (State.resetWith cfg imem dmem [] n) := rfl
    _ = State.runToEx 2 ((State.resetWith cfg imem dmem [] n).endCycle {} { inId := true }) :=
        State.runToEx_of_bubble rfl rfl (State.bubbleCycle_aligned ha {})
    _ = State.runToEx 1 (State.filledReset cfg imem dmem n) :=
        State.runToEx_of_bubble rfl rfl (State.bubbleCycle_aligned ha {})
    _ = (State.filledReset cfg imem dmem n).exCycle {} := State.runToEx_of_inEx rfl rfl

/-- Settles O15: the step is the cycle in EX with the counter at 2, and the word reads the counter into x5. -/
theorem cycleCounterReadsTwoAtResetPc : Obligations.CycleCounterReadsTwoAtResetPc := by
  intro cfg imem dmem n hw
  have hdecode : decodeWord 0xC00022F3#32 = .ok (.csrrs 5#5 0xC00#12 0#5) := by decide
  have hexec : execWord ((State.filledReset cfg imem dmem n).fetchWord cfg.resetPc) (State.filledReset cfg imem dmem n) =
      .next ((State.filledReset cfg imem dmem n).csrModify .set 5#5 0xC00#12 0#32) := by
    unfold execWord
    rw [show (State.filledReset cfg imem dmem n).fetchWord cfg.resetPc = 0xC00022F3#32 from hw, hdecode]
    rfl
  obtain ⟨f, hf⟩ := State.exCycle_of_no_interrupt (alignedPc_resetPc cfg) (State.interrupt_quiet _) hexec
  exact ⟨_, (step_resetWith cfg imem dmem n).trans hf, rfl, rfl⟩

end Sys2Proof.Machine
end

section
/-! SUPPORT. The statements about loads and stores (20_memory.md R103 to R112, R123; 42_load_store.md R280 to R289), and what a clock cycle
does to data memory (R413). -/

namespace Sys2Proof.Machine

/-! ### Lanes and addresses -/

/-- The byte address of lane `k` of the word that holds `a` is `a` displaced by `k` less the lane of `a` (R103, R108). -/
theorem laneAddr_wordAddr {a : Word} {k j : Nat} (h : k = a.toNat % 4 + j) : laneAddr (wordAddr a) k = a.toNat + j := by
  unfold laneAddr
  rw [toNat_wordAddr]
  omega

/-- Two neighbouring byte lanes are a halfword of the word. -/
theorem byteLane_append (w : Word) (k : Nat) : byteLane w (k + 1) ++ byteLane w k = w.extractLsb' (8 * k) 16 :=
  fields_join w (8 * k) 8 8

/-- The halfword lane of a word read, by its bytes: bit 1 of the address selects them (R109). -/
theorem laneHalf_readWord (m : Memory) (w : WordAddr) (l : BitVec 2) :
    laneHalf l (m.readWord w) =
      m.read (laneAddr w (l.toNat / 2 * 2 + 1)) ++ m.read (laneAddr w (l.toNat / 2 * 2)) := by
  have hl := l.isLt
  rw [← byteLane_readWord m w (by omega), ← byteLane_readWord m w (by omega), byteLane_append]
  rcases lane_cases l with rfl | rfl | rfl | rfl <;> rfl

/-! ### Loads -/

/-- A bus read counts one device read exactly at a device's address (R114). -/
theorem State.afterBusRead_deviceReads_eq (s : State) (a : Word) :
    (s.afterBusRead a).deviceReads = if s.target a = .device then s.deviceReads + 1 else s.deviceReads := by
  rw [State.afterBusRead_deviceReads]
  cases s.target a <;> simp

/-- A bus read changes no register. -/
@[simp] theorem State.reg_afterBusRead (s : State) (a : Word) (r : RegIdx) : (s.afterBusRead a).reg r = s.reg r := by
  simp [State.reg]

/-- An instruction that answers the common body of a load has the results of one. -/
theorem loads_of_retire {i : Instr} {s : State} {ea : Word} {rd : RegIdx} {v : Word}
    (h : exec i s = .next ((s.afterBusRead ea).retire rd v)) : Loads i s ea rd v := by
  refine ⟨_, h, by simp, ?_, ?_, ?_, ?_, ?_, State.afterBusRead_deviceReads_eq s ea, by simp, by simp, by simp, by simp⟩
  · simp [State.retire_eq, State.reg_setReg]
  · intro r hr
    rw [State.retire_eq, State.reg_setPc, State.reg_setReg, State.reg_afterBusRead, if_neg hr]
    split
    next h0 => rw [h0, State.reg_zero]
    next => rfl
  · intro a; simp [State.csrRead]
  · intro a; simp
  · intro a; simp

/-- A load instruction loads the extracted lane of what the platform presents for its effective address (R280). -/
theorem loads_of_execLoad {i : Instr} {s : State} {f3 : BitVec 3} {rd rs1 : RegIdx} {imm : BitVec 12} {ea v : Word}
    (h : exec i s = execLoad f3 rd rs1 imm s) (hea : ea = s.reg rs1 + imm.signExtend 32)
    (hv : loadExtract f3 (laneOf ea) (s.busRead ea) = v) : Loads i s ea rd v := by
  subst hea hv
  exact loads_of_retire h

/-- The word of a load decodes to it. -/
theorem shape_load (f3 : BitVec 3) (rd rs1 : RegIdx) (imm : BitVec 12) :
    opcodeOf (iType f3 0b0000011#7 rd rs1 imm) = 0b0000011#7 ∧ funct3Of (iType f3 0b0000011#7 rd rs1 imm) = f3 ∧
    rdOf (iType f3 0b0000011#7 rd rs1 imm) = rd ∧ rs1fOf (iType f3 0b0000011#7 rd rs1 imm) = rs1 ∧
    immIOf (iType f3 0b0000011#7 rd rs1 imm) = imm :=
  ⟨opcode_iType .., funct3_iType .., rd_iType .., rs1_iType .., immI_iType ..⟩

/-- The halfword lane of an address is chosen by its bit 1 (R109, R112). -/
theorem laneHalf_laneOf (ea w : Word) :
    laneHalf (laneOf ea) w = if ea.getLsbD 1 then w.extractLsb' 16 16 else w.extractLsb' 0 16 := by
  unfold laneHalf
  rw [laneOf_bit1]

/-- Settles O28: each word has the shape of its instruction, each meaning is `execLoad`, and bit 1 of the address chooses the lane. -/
theorem halfAndWordLoadResults : Obligations.HalfAndWordLoadResults := by
  intro s rd rs1 imm ea hea
  refine ⟨⟨decodeWord_of_shape (shape_load ..), loads_of_execLoad (f3 := 0b001#3) rfl hea ?_⟩,
    ⟨decodeWord_of_shape (shape_load ..), loads_of_execLoad (f3 := 0b101#3) rfl hea ?_⟩,
    ⟨decodeWord_of_shape (shape_load ..), loads_of_execLoad (f3 := 0b010#3) rfl hea rfl⟩⟩
  · exact congrArg (BitVec.signExtend 32) (laneHalf_laneOf ea _)
  · exact congrArg (BitVec.zeroExtend 32) (laneHalf_laneOf ea _)

/-- At an address that reaches main memory the platform presents the word it reaches (R103). -/
theorem State.busRead_of_ram {s : State} {a : Word} {w : WordAddr} (h : s.target a = .ram w) : s.busRead a = s.dmem.readWord w := by
  unfold State.busRead
  rw [h]

/-- The byte lane of an address in its own word is the byte at the address (R105, R109). -/
theorem laneByte_readWord (m : Memory) (a : Word) : laneByte (laneOf a) (m.readWord (wordAddr a)) = m.read a.toNat :=
  calc laneByte (laneOf a) (m.readWord (wordAddr a))
      = byteLane (m.readWord (wordAddr a)) (laneOf a).toNat := rfl
    _ = m.read (laneAddr (wordAddr a) (laneOf a).toNat) := byteLane_readWord m _ (laneOf a).isLt
    _ = m.read a.toNat := by rw [laneAddr_wordAddr (j := 0) (laneOf_toNat a)]; rfl

/-- The halfword lane of an even address in its own word is the two bytes from the address on, little-endian. -/
theorem laneHalf_readWord_even (m : Memory) {a : Word} (h : a.toNat % 2 = 0) :
    laneHalf (laneOf a) (m.readWord (wordAddr a)) = m.read (a.toNat + 1) ++ m.read a.toNat := by
  rw [laneHalf_readWord, laneOf_toNat, laneAddr_wordAddr (j := 1) (by omega), laneAddr_wordAddr (j := 0) (by omega)]
  rfl

/-- The word of an address divisible by 4 is the four bytes from the address on, little-endian. -/
theorem Memory.readWord_aligned (m : Memory) {a : Word} (h : a.toNat % 4 = 0) :
    m.readWord (wordAddr a) =
      wordOfBytes (m.read a.toNat) (m.read (a.toNat + 1)) (m.read (a.toNat + 2)) (m.read (a.toNat + 3)) := by
  have lane : ∀ k, laneAddr (wordAddr a) k = a.toNat + k := fun k => laneAddr_wordAddr (by omega)
  unfold Memory.readWord
  simp only [lane]
  rfl

/-- Settles O29: the platform presents the address's own word, and its lanes are the bytes of memory from the address on. -/
theorem alignedLoadsReadLittleEndianBytes : Obligations.AlignedLoadsReadLittleEndianBytes := by
  intro s rd rs1 imm ea hea hram
  have hread := State.busRead_of_ram hram
  refine ⟨loads_of_execLoad (f3 := 0b100#3) rfl hea ?_, fun h => loads_of_execLoad (f3 := 0b101#3) rfl hea ?_,
    fun h => loads_of_execLoad (f3 := 0b010#3) rfl hea ?_⟩
  · rw [hread]
    exact congrArg (BitVec.zeroExtend 32) (laneByte_readWord s.dmem ea)
  · rw [hread]
    exact congrArg (BitVec.zeroExtend 32) (laneHalf_readWord_even s.dmem h)
  · rw [hread]
    exact Memory.readWord_aligned s.dmem h

/-! ### Stores -/

/-- Settles O32: a store tests for program text before anything else. -/
theorem storeIntoProgramTextIsRefused : Obligations.StoreIntoProgramTextIsRefused := by
  intro s rs1 rs2 imm h
  have refused : ∀ f3, execStore f3 rs1 rs2 imm s = .refused .storeIntoProgramText := fun _ => if_pos h
  exact ⟨refused _, refused _, refused _⟩

/-- An instruction that answers `execStore` outside program text has the results of a store (R280). -/
theorem stores_of_execStore {i : Instr} {s : State} {f3 : BitVec 3} {rs1 rs2 : RegIdx} {imm : BitVec 12} {mem : Nat → Byte}
    (h : exec i s = execStore f3 rs1 rs2 imm s) (ht : s.hitsText (s.ea rs1 imm) = false)
    (hm : ∀ a, (s.storeAt f3 (s.ea rs1 imm) (s.reg rs2)).dmem.read a = mem a) : Stores i s mem := by
  have hnext : exec i s = .next (s.storeAt f3 (s.ea rs1 imm) (s.reg rs2)).advance := by
    rw [h, execStore, ht]
    rfl
  refine ⟨_, hnext, by simp, ?_, ?_, hm, ?_, by simp, by simp, by simp, by simp, by simp⟩
  · intro r; simp [State.reg]
  · intro a; simp [State.csrRead]
  · intro a; simp

/-- The word of a store decodes to it. -/
theorem shape_store (f3 : BitVec 3) (rs1 rs2 : RegIdx) (imm : BitVec 12) :
    opcodeOf (sType f3 0b0100011#7 rs1 rs2 imm) = 0b0100011#7 ∧ funct3Of (sType f3 0b0100011#7 rs1 rs2 imm) = f3 ∧
    rs1fOf (sType f3 0b0100011#7 rs1 rs2 imm) = rs1 ∧ rs2fOf (sType f3 0b0100011#7 rs1 rs2 imm) = rs2 ∧
    immSOf (sType f3 0b0100011#7 rs1 rs2 imm) = imm :=
  ⟨opcode_sType .., funct3_sType .., rs1_sType .., rs2_sType .., immS_sType ..⟩

/-- A byte address is the lane `a % 4` of the word `a / 4`. -/
theorem eq_laneAddr_iff {a k : Nat} {w : WordAddr} (hk : k < 4) : a = laneAddr w k ↔ a / 4 = w.toNat ∧ a % 4 = k := by
  unfold laneAddr
  omega

section bytes
variable {s : State} {ea : Word} {w : WordAddr} (hw : s.dmem.wf) (h : s.target ea = .ram w)
include hw h

/-- Every byte after a store that reaches main memory: the strobed lanes hold the data (R104). -/
theorem State.storeAt_read_ram (f3 : BitVec 3) (v : Word) (a : Nat) :
    (s.storeAt f3 ea v).dmem.read a =
      if a / 4 = w.toNat ∧ (storeStrobe f3 (laneOf ea)).getLsbD (a % 4) = true then
        byteLane (storeData f3 (laneOf ea) v) (a % 4)
      else s.dmem.read a := by
  rw [State.storeAt_read hw, h]

/-- Every byte after SB: the lane of the address holds the low byte (R110, R111). -/
theorem State.storeAt_byte_read (v : Word) (a : Nat) :
    (s.storeAt 0b000#3 ea v).dmem.read a =
      if a = laneAddr w (ea.toNat % 4) then v.extractLsb' 0 8 else s.dmem.read a := by
  have hs := strobe_sb (laneOf ea) ⟨a % 4, by omega⟩
  simp only [State.storeAt_read_ram hw h, hs, decide_eq_true_eq, ← laneOf_toNat, eq_laneAddr_iff (laneOf ea).isLt]
  split
  next hl => rw [hl.2]; exact data_sb _ v
  next => rfl

/-- Every byte after SH: the halfword lane of the address holds the low halfword, little-endian. -/
theorem State.storeAt_half_read (v : Word) (a : Nat) :
    (s.storeAt 0b001#3 ea v).dmem.read a =
      if a = laneAddr w (ea.toNat % 4 / 2 * 2) then v.extractLsb' 0 8
      else if a = laneAddr w (ea.toNat % 4 / 2 * 2 + 1) then v.extractLsb' 8 8
      else s.dmem.read a := by
  have hl : ea.toNat % 4 < 4 := Nat.mod_lt _ (by omega)
  have hs := strobe_sh (laneOf ea) ⟨a % 4, by omega⟩
  have low := data_sh_low (laneOf ea) v
  have high := data_sh_high (laneOf ea) v
  rw [laneOf_toNat] at hs low high
  simp only [State.storeAt_read_ram hw h, hs, decide_eq_true_eq, eq_laneAddr_iff (show ea.toNat % 4 / 2 * 2 < 4 by omega),
    eq_laneAddr_iff (show ea.toNat % 4 / 2 * 2 + 1 < 4 by omega)]
  by_cases h0 : a / 4 = w.toNat ∧ a % 4 = ea.toNat % 4 / 2 * 2
  · rw [if_pos (by omega), if_pos h0, h0.2, low]
  · rw [if_neg h0]
    by_cases h1 : a / 4 = w.toNat ∧ a % 4 = ea.toNat % 4 / 2 * 2 + 1
    · rw [if_pos (by omega), if_pos h1, h1.2, high]
    · rw [if_neg (by omega), if_neg h1]

/-- Every byte after SW: the word holds the register, little-endian. -/
theorem State.storeAt_word_read (v : Word) (a : Nat) :
    (s.storeAt 0b010#3 ea v).dmem.read a =
      if a = laneAddr w 0 then v.extractLsb' 0 8
      else if a = laneAddr w 1 then v.extractLsb' 8 8
      else if a = laneAddr w 2 then v.extractLsb' 16 8
      else if a = laneAddr w 3 then v.extractLsb' 24 8
      else s.dmem.read a := by
  have hs := strobe_sw (laneOf ea) ⟨a % 4, by omega⟩
  simp only [State.storeAt_read_ram hw h, hs, and_true, eq_laneAddr_iff (show 0 < 4 by omega), eq_laneAddr_iff (show 1 < 4 by omega),
    eq_laneAddr_iff (show 2 < 4 by omega), eq_laneAddr_iff (show 3 < 4 by omega)]
  by_cases hword : a / 4 = w.toNat
  · have hk : a % 4 = 0 ∨ a % 4 = 1 ∨ a % 4 = 2 ∨ a % 4 = 3 := by omega
    rcases hk with hk | hk | hk | hk <;> simp [hword, hk] <;> rfl
  · simp [hword]
end bytes

/-- Settles O30: the strobe and the data are those of the lane, and they write the one byte of `storeAt_byte_read`. -/
theorem byteStoreResult : Obligations.ByteStoreResult := by
  intro s rs1 rs2 imm hw ht
  have hl := laneOf_toNat (s.ea rs1 imm)
  refine ⟨rfl, decodeWord_of_shape (shape_store ..), ?_, ?_, stores_of_execStore (f3 := 0b000#3) rfl ht fun a => ?_⟩
  · rw [← hl]; rfl
  · rw [← hl]; rfl
  · cases h : s.target (s.ea rs1 imm) with
    | ram w => exact State.storeAt_byte_read hw h _ a
    | _ => rw [State.storeAt_read hw, h]

/-- Settles O31: the strobes of the address's lane write the bytes of `storeAt_half_read` and `storeAt_word_read`. -/
theorem halfAndWordStoreResults : Obligations.HalfAndWordStoreResults := by
  intro s rs1 rs2 imm hw ht
  refine ⟨⟨decodeWord_of_shape (shape_store ..), stores_of_execStore (f3 := 0b001#3) rfl ht fun a => ?_⟩,
    ⟨decodeWord_of_shape (shape_store ..), stores_of_execStore (f3 := 0b010#3) rfl ht fun a => ?_⟩⟩
  · cases h : s.target (s.ea rs1 imm) with
    | ram w => exact State.storeAt_half_read hw h _ a
    | _ => rw [State.storeAt_read hw, h]
  · cases h : s.target (s.ea rs1 imm) with
    | ram w => exact State.storeAt_word_read hw h _ a
    | _ => rw [State.storeAt_read hw, h]

/-- Settles O55: the commit leaves the data memory that the bus transaction of the entry in MEM leaves, which writes only if the entry
is a valid store. -/
theorem onlyTheStoreInMemWrites : Obligations.OnlyTheStoreInMemWrites := by
  intro s t hw hr hc a
  obtain rfl := State.cycle_eq_commit hr hc
  rw [State.commit_dmem, State.memEdge_dmem]
  by_cases hwe : s.pipe.exMem.valid = true ∧ s.pipe.exMem.memWrite = true
  · obtain ⟨hv, hm⟩ := hwe
    rw [if_pos (by simp [ExMem.we, hv, hm])]
    cases h : s.target s.pipe.exMem.aluResult with
    | ram w => simp [State.storeAt_read_ram hw h, hv, hm]
    | _ => rw [State.storeAt_read hw, h]
  · rw [if_neg (by simpa [ExMem.we] using hwe)]
    cases s.target s.pipe.exMem.aluResult with
    | ram w => exact (if_neg fun ⟨hv, hm, _⟩ => hwe ⟨hv, hm⟩).symm
    | _ => rfl

end Sys2Proof.Machine
end

section
/-! SUPPORT. The statements about fetch and the step (20_memory.md R120 to R122; 70_reset_and_hazards.md R405, R450). -/

namespace Sys2Proof.Machine

/-! ### The word at the PC -/

/-- A word of which every lane has been written reads back (R104, R105). -/
theorem Memory.readWord_writeLanes_same {m : Memory} (h : m.wf) (w : WordAddr) (d : Word) :
    (m.writeLanes w 0b1111#4 d).readWord w = d := by
  have lane : ∀ k : Fin 4, (m.writeLanes w 0b1111#4 d).read (laneAddr w k) = byteLane d k := by
    intro k
    rw [← byteLane_readWord _ _ k.isLt, byteLane_readWord_writeLanes h _ _ _ k.isLt]
    exact if_pos (strobe_sw 0#2 k)
  unfold Memory.readWord
  exact (congr (congr (congr (congrArg wordOfBytes (lane 0)) (lane 1)) (lane 2)) (lane 3)).trans (wordOfBytes_lanes d)

/-- Settles O47: the settled state is drained, the trace is emptied, and the placed word reads back. -/
theorem placedWordIsFetched : Obligations.PlacedWordIsFetched := by
  intro s w hw
  have hword : BitVec.ofNat 32 (w.toNat % 2 ^ 32) = w := by
    rw [Nat.mod_eq_of_lt w.isLt, BitVec.ofNat_toNat, BitVec.setWidth_eq]
  have himem : (s.withFetchWord 32 w.toNat).imem = s.imem.writeLanes (wordAddr s.oldestPc) 0b1111#4 w := by
    rw [State.withFetchWord, hword, ← State.settle_imem s]
    rfl
  refine ⟨by simp [State.drained, State.withFetchWord], rfl, by simp [State.withFetchWord], ?_, ?_⟩
  · rw [himem]
    exact Memory.writeLanes_wf hw _ _ _
  · rw [State.fetchWord, himem]
    exact Memory.readWord_writeLanes_same hw _ _

/-- An aligned address is a multiple of 4. -/
theorem toNat_mod_four_of_aligned {a : Word} (h : alignedPc a = true) : a.toNat % 4 = 0 := by
  have hl : laneOf a = 0#2 := beq_iff_eq.mp h
  rw [← laneOf_toNat, hl]
  rfl

/-- The bytes of instruction memory from an aligned PC on are the fetched word, little-endian (R121). -/
theorem State.fetchWord_eq_bytes (s : State) {pc : Word} (h : alignedPc pc = true) :
    s.fetchWord pc = wordOfBytes (s.imem.read pc.toNat) (s.imem.read (pc.toNat + 1)) (s.imem.read (pc.toNat + 2))
      (s.imem.read (pc.toNat + 3)) :=
  Memory.readWord_aligned s.imem (toNat_mod_four_of_aligned h)

/-- What the decoder reads from a byte string is what it reads from the word of its first four bytes (R140). -/
theorem decodeWord_of_decode {b0 b1 b2 b3 : Byte} {rest r : List Byte} {i : Instr}
    (h : decode (b0 :: b1 :: b2 :: b3 :: rest) = .ok (i, r)) : decodeWord (wordOfBytes b0 b1 b2 b3) = .ok i := by
  unfold decode at h
  cases hw : decodeWord (wordOfBytes b0 b1 b2 b3) with
  | error e => simp [hw, Except.map] at h
  | ok j =>
    obtain ⟨rfl, -⟩ : j = i ∧ rest = r := by simpa [hw, Except.map] using h
    rfl

/-! ### The step from an empty pipeline -/

/-- A state with an empty pipeline is settled. -/
theorem State.settle_of_drained {s : State} (h : s.drained) : s.settle = s := by
  unfold State.drained at h
  apply State.ext <;> simp [State.settle, State.oldestPc, h, State.commitWb, MemWb.we, State.memEdge, ExMem.re, ExMem.we, State.toMemWb]

/-- A fetch from a misaligned PC stops the cycle, with an instruction in EX or not (R122). -/
theorem State.runToEx_misaligned {s : State} {n : Nat} (hr : s.curInputs.reset = false) (hv : s.curInputs.imemValid = true)
    (ha : alignedPc s.pc = false) : State.runToEx (n + 1) s = .fault .misalignedFetch := by
  cases hf : s.front.inEx
  · simp [State.runToEx, hr, hf, State.bubbleCycle, hv, ha]
  · rw [State.runToEx_of_inEx hr hf]
    simp [State.exCycle, ha]

/-- With no input scheduled the current inputs are the quiet ones (log 16). -/
theorem State.curInputs_of_quiet {s : State} (hi : s.inputs = []) : s.curInputs = {} := by simp [State.curInputs, hi]

/-- Under quiet inputs a step from an empty pipeline is a run of at most three cycles. -/
theorem step_of_drained {s : State} (hd : s.drained) (hi : s.inputs = []) : step s = State.runToEx 3 s := by
  simp [step, State.curInputs_of_quiet hi, hi, State.stepFuel, State.settle_of_drained hd]

/-- Settles O46: the first cycle of the step fetches from the misaligned PC. -/
theorem misalignedFetchStops : Obligations.MisalignedFetchStops := by
  intro s hd hi ha
  have hq := State.curInputs_of_quiet hi
  rw [step_of_drained hd hi]
  exact State.runToEx_misaligned (by rw [hq]) (by rw [hq]) ha

/-- A bubble cycle of the run to EX under quiet inputs: what is in ID moves into EX, and a valid fetch into ID. -/
theorem State.runToEx_of_quiet_bubble {s : State} (n : Nat) (hi : s.inputs = []) (ha : alignedPc s.pc = true)
    (hf : s.front.inEx = false) :
    State.runToEx (n + 1) s = State.runToEx n (s.endCycle {} { inId := true, inEx := s.front.inId }) := by
  have hq := State.curInputs_of_quiet hi
  rw [State.runToEx_of_bubble (by rw [hq]) hf (State.bubbleCycle_aligned ha _), hq]
  rfl

/-- The last cycle of the run to EX under quiet inputs. -/
theorem State.runToEx_of_quiet_inEx {s : State} (n : Nat) (hi : s.inputs = []) (hf : s.front.inEx = true) :
    State.runToEx (n + 1) s = s.exCycle {} := by
  have hq := State.curInputs_of_quiet hi
  rw [State.runToEx_of_inEx (by rw [hq]) hf, hq]

section atEx
variable {s : State}

/-- With the next instruction in EX no bubble cycle is left. -/
theorem State.atEx_of_inEx (hx : s.front.inEx = true) : s.atEx = s := if_pos hx

/-- With the next instruction in ID one bubble cycle is left. -/
theorem State.atEx_of_inId (hi : s.inputs = []) (hx : s.front.inEx = false) (hd : s.front.inId = true) :
    s.atEx = s.endCycle {} { inId := true, inEx := true } := by
  apply State.ext <;> simp [State.atEx, State.bubbles, hx, hd, hi, mipOf]

/-- With the front end empty two bubble cycles are left. -/
theorem State.atEx_of_empty (hi : s.inputs = []) (hx : s.front.inEx = false) (hd : s.front.inId = false) :
    s.atEx = (s.endCycle {} { inId := true }).endCycle {} { inId := true, inEx := true } := by
  apply State.ext <;> simp [State.atEx, State.bubbles, hx, hd, hi, mipOf, BitVec.add_assoc]
end atEx

/-- Under quiet inputs a run from an aligned PC is the cycle in EX from the state after the bubble cycles (R405). -/
theorem State.runToEx_eq_atEx {s : State} (hi : s.inputs = []) (ha : alignedPc s.pc = true) :
    State.runToEx 3 s = s.atEx.exCycle {} := by
  cases hx : s.front.inEx with
  | true => rw [State.runToEx_of_quiet_inEx 2 hi hx, State.atEx_of_inEx hx]
  | false =>
    rw [State.runToEx_of_quiet_bubble 2 hi ha hx]
    have hi' : ∀ f, (s.endCycle {} f).inputs = [] := by simp [hi]
    cases hd : s.front.inId with
    | true => rw [State.atEx_of_inId hi hx hd, State.runToEx_of_quiet_inEx 1 (hi' _) rfl]
    | false =>
      rw [State.atEx_of_empty hi hx hd, State.runToEx_of_quiet_bubble 1 (hi' _) ha rfl,
        State.runToEx_of_quiet_inEx 0 (by simp [hi]) rfl]
      rfl

/-- Without an interrupt the cycle in which a recognised word is in EX is its instruction and the clock edge (R359). -/
theorem State.exCycle_eq_andThen {s : State} {i : Instr} {inp : Inputs} (ha : alignedPc s.pc = true) (hi : s.interrupt inp = none)
    (hw : decodeWord (s.fetchWord s.pc) = .ok i) : ∃ f, s.exCycle inp = andThen (exec i s) (fun t => t.endCycle inp f) := by
  unfold State.exCycle execWord
  simp only [ha, hi, hw, Bool.not_true, Bool.false_eq_true, if_false]
  exact ⟨_, rfl⟩

/-- The bubble cycles move neither the PC nor instruction memory. -/
@[simp] theorem State.atEx_pc (s : State) : s.atEx.pc = s.pc := by
  unfold State.atEx; split <;> rfl
@[simp] theorem State.atEx_imem (s : State) : s.atEx.imem = s.imem := by
  unfold State.atEx; split <;> rfl

/-- Settles O44: the step is the cycle in EX from the filled front end, and the word fetched there is the one of the four bytes. -/
theorem stepRunsTheDecodedInstruction : Obligations.StepRunsTheDecodedInstruction := by
  intro s i b0 b1 b2 b3 rest hd hi ha h0 h1 h2 h3 hdec
  have hword : s.atEx.fetchWord s.atEx.pc = wordOfBytes b0 b1 b2 b3 := by
    rw [h0, h1, h2, h3, ← State.fetchWord_eq_bytes s ha]
    simp [State.fetchWord]
  rw [step_of_drained hd hi, State.runToEx_eq_atEx hi ha]
  refine State.exCycle_eq_andThen (by rw [State.atEx_pc, ha]) (State.interrupt_quiet _) ?_
  rw [hword]
  exact decodeWord_of_decode hdec

end Sys2Proof.Machine
end

section
/-! SUPPORT. The statements about the encoding (30_encoding.md R140 to R170): each instruction's word has its fields, the fields put
together again are the word, and the opcode table's rows are what the decoder recognises. -/

namespace Sys2Proof

/-! ### From the instruction to its word -/

/-- The word of a well-formed instruction has the fields of the instruction, by its format (R141). -/
theorem shape_encodeWord {i : Instr} (h : i.wellFormed = true) : Shape (encodeWord i) i := by
  cases i
  case lui | auipc => exact ⟨opcode_uType .., rd_uType .., immU_uType ..⟩
  case jal => exact ⟨opcode_jType .., rd_jType .., immJ_jType _ _ _ h⟩
  case beq | bne | blt | bge | bltu | bgeu =>
    exact ⟨opcode_bType .., funct3_bType .., rs1_bType .., rs2_bType .., immB_bType _ _ _ _ _ h⟩
  case sb | sh | sw => exact ⟨opcode_sType .., funct3_sType .., rs1_sType .., rs2_sType .., immS_sType ..⟩
  case slli | srli | srai | add | sub | sll | slt | sltu | xor | srl | sra | or | and =>
    exact ⟨opcode_rType .., funct3_rType .., funct7_rType .., rd_rType .., rs1_rType .., rs2_rType ..⟩
  case ecall | ebreak | mret => rfl
  case fence =>
    exact ⟨opcode_iType .., funct3_iType .., rd_iType .., rs1_iType .., fm_iType .., pred_iType .., succ_iType ..⟩
  all_goals exact ⟨opcode_iType .., funct3_iType .., rd_iType .., rs1_iType .., immI_iType ..⟩

/-- The decoder reads a byte string's first instruction from the word of its first four bytes (R140). -/
theorem decode_encode_append (i : Instr) (rest : List Byte) :
    decode (encode i ++ rest) = (decodeWord (encodeWord i)).map (·, rest) := by
  conv_rhs => rw [← wordOfBytes_lanes (encodeWord i)]
  rfl

/-- Settles O2: the bytes are those of the word, and the word has the fields of the instruction. -/
theorem decodeOfEncode : Obligations.DecodeOfEncode := by
  intro i rest h
  rw [decode_encode_append, decodeWord_of_shape (shape_encodeWord h)]
  rfl

/-! ### From the word to its instruction -/

section
variable {w : Word} {op : BitVec 7} {f3 : BitVec 3}

/-- The fields that every format but U and J has at the same place, put together again. -/
theorem low_fields_join (w : Word) :
    w.extractLsb' 20 12 ++ rs1fOf w ++ funct3Of w ++ rdOf w ++ opcodeOf w = w := by
  unfold rs1fOf funct3Of rdOf opcodeOf
  rw [fields_join w 15 5 12, fields_join w 12 3 17, fields_join w 7 5 20, fields_join w 0 7 25, field_all]

/-- The I-format word of a word's fields is the word. -/
theorem iType_fields (ho : opcodeOf w = op) (h3 : funct3Of w = f3) : iType f3 op (rdOf w) (rs1fOf w) (immIOf w) = w := by
  subst ho h3
  exact low_fields_join w

/-- FENCE has its three fields where the I-immediate stands. -/
theorem iType_fence_fields (ho : opcodeOf w = op) (h3 : funct3Of w = f3) :
    iType f3 op (rdOf w) (rs1fOf w) (w.extractLsb' 28 4 ++ w.extractLsb' 24 4 ++ w.extractLsb' 20 4) = w := by
  rw [fields_join w 24 4 4, fields_join w 20 4 8]
  exact iType_fields ho h3

/-- The R-format word of a word's fields is the word: funct7 and rs2 stand where the I-immediate stands. -/
theorem rType_fields {f7 : BitVec 7} (ho : opcodeOf w = op) (h3 : funct3Of w = f3) (h7 : funct7Of w = f7) :
    rType f7 f3 op (rdOf w) (rs1fOf w) (rs2fOf w) = w := by
  subst h7
  have himm : funct7Of w ++ rs2fOf w = immIOf w := fields_join w 20 5 7
  rw [rType, himm]
  exact iType_fields ho h3

/-- The U-format word of a word's fields is the word. -/
theorem uType_fields (ho : opcodeOf w = op) : uType op (rdOf w) (immUOf w) = w := by
  subst ho
  unfold uType immUOf rdOf opcodeOf
  rw [fields_join w 7 5 20, fields_join w 0 7 25, field_all]

/-- The S-format word of a word's fields is the word. -/
theorem sType_fields (ho : opcodeOf w = op) (h3 : funct3Of w = f3) : sType f3 op (rs1fOf w) (rs2fOf w) (immSOf w) = w := by
  subst ho h3
  have hhigh : (immSOf w).extractLsb' 5 7 = funct7Of w := by
    rw [immSOf, field_high _ _ 5 7 (by decide)]
    exact field_all _
  have hlow : (immSOf w).extractLsb' 0 5 = rdOf w := by
    rw [immSOf, field_low _ _ 0 5 (by decide)]
    exact field_all _
  have himm : funct7Of w ++ rs2fOf w = immIOf w := fields_join w 20 5 7
  rw [sType, hhigh, hlow, himm]
  exact low_fields_join w

/-- The B-format word of a word's fields is the word. -/
theorem bType_fields (ho : opcodeOf w = op) (h3 : funct3Of w = f3) : bType f3 op (rs1fOf w) (rs2fOf w) (immBOf w) = w := by
  subst ho h3
  have hsign : (immBOf w).extractLsb' 12 1 = w.extractLsb' 31 1 := by
    rw [immBOf, field_high, field_high, field_high, field_high, field_all] <;> decide
  have hhigh : (immBOf w).extractLsb' 5 6 = w.extractLsb' 25 6 := by
    rw [immBOf, field_high, field_high, field_low, field_all] <;> decide
  have hlow : (immBOf w).extractLsb' 1 4 = w.extractLsb' 8 4 := by
    rw [immBOf, field_high, field_low, field_all] <;> decide
  have hbit11 : (immBOf w).extractLsb' 11 1 = w.extractLsb' 7 1 := by
    rw [immBOf, field_high, field_high, field_high, field_low, field_all] <;> decide
  unfold bType rs1fOf rs2fOf funct3Of opcodeOf
  rw [hsign, hhigh, hlow, hbit11, fields_join w 25 6 1, fields_join w 20 5 7, fields_join w 15 5 12, fields_join w 12 3 17,
    fields_join w 8 4 20, fields_join w 7 1 24, fields_join w 0 7 25, field_all]

/-- The J-format word of a word's fields is the word. -/
theorem jType_fields (ho : opcodeOf w = op) : jType op (rdOf w) (immJOf w) = w := by
  subst ho
  have hsign : (immJOf w).extractLsb' 20 1 = w.extractLsb' 31 1 := by
    rw [immJOf, field_high, field_high, field_high, field_high, field_all] <;> decide
  have hlow : (immJOf w).extractLsb' 1 10 = w.extractLsb' 21 10 := by
    rw [immJOf, field_high, field_low, field_all] <;> decide
  have hbit11 : (immJOf w).extractLsb' 11 1 = w.extractLsb' 20 1 := by
    rw [immJOf, field_high, field_high, field_low, field_all] <;> decide
  have hhigh : (immJOf w).extractLsb' 12 8 = w.extractLsb' 12 8 := by
    rw [immJOf, field_high, field_high, field_high, field_low, field_all] <;> decide
  unfold jType rdOf opcodeOf
  rw [hsign, hlow, hbit11, hhigh, fields_join w 21 10 1, fields_join w 20 1 11, fields_join w 12 8 12, fields_join w 7 5 20,
    fields_join w 0 7 25, field_all]

/-- A value whose last field is one 0 bit is even. -/
theorem evenOffset_append_zero {n : Nat} (x : BitVec n) : evenOffset (x ++ 0#1) = true := by
  rw [evenOffset, BitVec.getLsbD_append]
  rfl

end

/-- A word that has the fields of an instruction is the instruction's word, by its format (R141). -/
theorem encodeWord_of_shape {w : Word} {i : Instr} (h : Shape w i) : i.wellFormed = true ∧ encodeWord i = w := by
  cases i
  case lui | auipc => obtain ⟨ho, rfl, rfl⟩ := h; exact ⟨rfl, uType_fields ho⟩
  case jal => obtain ⟨ho, rfl, rfl⟩ := h; exact ⟨evenOffset_append_zero _, jType_fields ho⟩
  case beq | bne | blt | bge | bltu | bgeu =>
    obtain ⟨ho, h3, rfl, rfl, rfl⟩ := h; exact ⟨evenOffset_append_zero _, bType_fields ho h3⟩
  case sb | sh | sw => obtain ⟨ho, h3, rfl, rfl, rfl⟩ := h; exact ⟨rfl, sType_fields ho h3⟩
  case slli | srli | srai | add | sub | sll | slt | sltu | xor | srl | sra | or | and =>
    obtain ⟨ho, h3, h7, rfl, rfl, rfl⟩ := h; exact ⟨rfl, rType_fields ho h3 h7⟩
  case ecall | ebreak | mret => exact ⟨rfl, h.symm⟩
  case fence => obtain ⟨ho, h3, rfl, rfl, rfl, rfl, rfl⟩ := h; exact ⟨rfl, iType_fence_fields ho h3⟩
  all_goals obtain ⟨ho, h3, rfl, rfl, rfl⟩ := h; exact ⟨rfl, iType_fields ho h3⟩

/-- Settles O3: what the decoder reads has the fields of the word. -/
theorem encodeOfDecode : Obligations.EncodeOfDecode := fun _ _ h => encodeWord_of_shape (shape_of_decodeWord h)

/-! ### The opcode table -/

/-- A word that has the fields of an instruction matches the instruction's row. -/
theorem rowMatches_of_shape {w : Word} {i : Instr} (h : Shape w i) : rowMatches (tableRow i) w = true := by
  cases i
  case lui | auipc | jal =>
    obtain ⟨ho, -⟩ := h
    exact Laws.TableRow.of_op (by decide) (ho.trans (by decide))
  case ecall | ebreak | mret => subst h; decide
  case slli | srli | srai | add | sub | sll | slt | sltu | xor | srl | sra | or | and =>
    obtain ⟨ho, h3, h7, -⟩ := h
    exact Laws.TableRow.of_op_f3_f7 (by decide) (ho.trans (by decide)) (h3.trans (by decide)) (h7.trans (by decide))
  all_goals
    obtain ⟨ho, h3, -⟩ := h
    exact Laws.TableRow.of_op_f3 (by decide) (ho.trans (by decide)) (h3.trans (by decide))

/-- The row of every instruction stands in the table. -/
theorem tableRow_mem_opcodeTable (i : Instr) : tableRow i ∈ opcodeTable := by
  cases i <;> exact List.elem_iff.mp rfl

/-- The match of every row, read as a word, decodes to an instruction of that row. -/
theorem opcodeTable_all_decode : opcodeTable.all (fun r => (decodeWord r.2).toOption.map tableRow == some r) = true := by
  decide

/-- Every row of the table is the row of an instruction. -/
theorem exists_tableRow_of_mem {r : Word × Word} (hr : r ∈ opcodeTable) : ∃ i, tableRow i = r := by
  have hrow := List.all_eq_true.mp opcodeTable_all_decode r hr
  obtain ⟨i, -, hi⟩ := Option.map_eq_some_iff.mp (beq_iff_eq.mp hrow)
  exact ⟨i, hi⟩

/-- A word that matches an instruction's row decodes to an instruction of that row. -/
theorem decodeWord_of_rowMatches {w : Word} {i : Instr} (h : rowMatches (tableRow i) w = true) :
    ∃ j, decodeWord w = .ok j ∧ tableRow j = tableRow i := by
  have hrow : w &&& (tableRow i).1 = (tableRow i).2 := beq_iff_eq.mp h
  cases i <;> simp only [tableRow] at hrow
  case lui | auipc | jal =>
    have ho := (masked_op (by decide)).mp hrow
    simp only [decodeWord, ho]
    exact ⟨_, rfl, rfl⟩
  case ecall | ebreak | mret =>
    obtain rfl := (BitVec.and_allOnes (x := w)).symm.trans hrow
    exact ⟨_, rfl, rfl⟩
  case slli | srli | srai | add | sub | sll | slt | sltu | xor | srl | sra | or | and =>
    obtain ⟨ho, h3, h7⟩ := (masked_op_f3_f7 (by decide)).mp hrow
    simp only [decodeWord, decodeOp, decodeOpImm, ho, h3, h7]
    exact ⟨_, rfl, rfl⟩
  all_goals
    obtain ⟨ho, h3⟩ := (masked_op_f3 (by decide)).mp hrow
    simp only [decodeWord, decodeJalr, decodeBranch, decodeLoad, decodeStore, decodeOpImm, decodeMiscMem,
      decodeSystem, ho, h3]
    exact ⟨_, rfl, rfl⟩

/-- A word that matches a row of the table decodes to an instruction of that row. -/
theorem decodeWord_of_mem_opcodeTable {w : Word} {r : Word × Word} (hr : r ∈ opcodeTable) (h : rowMatches r w = true) :
    ∃ j, decodeWord w = .ok j ∧ tableRow j = r := by
  obtain ⟨i, rfl⟩ := exists_tableRow_of_mem hr
  exact decodeWord_of_rowMatches h

/-- Settles O4: a row that matches a word is the row of what the word decodes to, so it is the only one. -/
theorem recognisedByExactlyOneRow : Obligations.RecognisedByExactlyOneRow := by
  refine ⟨fun w => ⟨?_, ?_⟩, ?_, rfl⟩
  · rintro ⟨i, hi⟩
    exact ⟨tableRow i, tableRow_mem_opcodeTable i, rowMatches_of_shape (shape_of_decodeWord hi)⟩
  · rintro ⟨r, hr, h⟩
    obtain ⟨j, hj, -⟩ := decodeWord_of_mem_opcodeTable hr h
    exact ⟨j, hj⟩
  · intro w r hr q hq hrw hqw
    obtain ⟨i, hi, rfl⟩ := decodeWord_of_mem_opcodeTable hr hrw
    obtain ⟨j, hj, rfl⟩ := decodeWord_of_mem_opcodeTable hq hqw
    rw [Except.ok.inj (hi.symm.trans hj)]

end Sys2Proof
end

section
/-! SUPPORT. The statements about JAL, the branches and the expansion of `li` (41_control_transfer.md R250 to R262;
30_encoding.md R180, R181). -/

namespace Sys2Proof.Machine

/-! ### JAL and the branches -/

/-- An offset whose bit 0 is 0 is even. -/
theorem evenOffset_of_getLsbD {n : Nat} {off : BitVec n} (h : off.getLsbD 0 = false) : evenOffset off = true := by
  simp [evenOffset, h]

/-- Settles O24: the word is JAL's encoding, and its meaning is a register write and a jump. -/
theorem jalLinksAndJumps : Obligations.JalLinksAndJumps := fun _ rd off =>
  ⟨fun h => decodeWord_of_shape (shape_encodeWord (i := .jal rd off) (evenOffset_of_getLsbD h)), writesReg_of_setReg rfl⟩

/-- The decoder reads a B-format word of the BRANCH opcode by its funct3 (R164). -/
theorem decodeWord_bType_branch (f3 : BitVec 3) (rs1 rs2 : RegIdx) (off : BitVec 13) :
    decodeWord (bType f3 0b1100011#7 rs1 rs2 off) = decodeBranch (bType f3 0b1100011#7 rs1 rs2 off) := by
  unfold decodeWord
  rw [opcode_bType]
  rfl

/-- A branch instruction jumps exactly when its condition holds (R250). -/
theorem onlyJumps_of_execBranch {i : Instr} {s : State} {f3 : BitVec 3} {rs1 rs2 : RegIdx} {off : BitVec 13} {p : Prop}
    [Decidable p] (h : exec i s = execBranch f3 rs1 rs2 off s) (hp : branchCond f3 (s.reg rs1) (s.reg rs2) = true ↔ p) :
    OnlyJumps i s (if p then s.pc + off.signExtend 32 else s.pc + 4#32) := by
  apply onlyJumps_of_setPc
  rw [h, execBranch]
  by_cases hc : p
  · rw [if_pos (hp.mpr hc), if_pos hc]
    rfl
  · rw [if_neg (hp.not.mpr hc), if_neg hc]
    rfl

/-- Settles O26: the word's funct3 chooses the branch, and each meaning is `execBranch` with its comparison. -/
theorem branchesJumpOnTheirCondition : Obligations.BranchesJumpOnTheirCondition := by
  intro s rs1 rs2 off
  refine ⟨fun hoff f3 => ?_, onlyJumps_of_execBranch rfl (branchCond_beq _ _), onlyJumps_of_execBranch rfl (branchCond_bne _ _),
    onlyJumps_of_execBranch rfl (branchCond_blt _ _), onlyJumps_of_execBranch rfl (branchCond_bge _ _),
    onlyJumps_of_execBranch rfl (branchCond_bltu _ _), onlyJumps_of_execBranch rfl (branchCond_bgeu _ _)⟩
  refine (decodeWord_bType_branch f3 rs1 rs2 off).trans ?_
  unfold decodeBranch
  -- With the fields read off, the decoder's match and the statement's have the same arms.
  rw [funct3_bType, rs1_bType, rs2_bType, immB_bType _ _ _ _ _ (evenOffset_of_getLsbD hoff), opcode_bType] <;> rfl

/-! ### The expansion of `li` -/

/-- The upper immediate is its field times 4096 (R153). -/
theorem toNat_immU (x : BitVec 20) : (immU x).toNat = x.toNat * 4096 := by
  show (x ++ 0#12).toNat = _
  rw [BitVec.toNat_append, Nat.shiftLeft_eq]
  exact Nat.or_zero _

/-- The I-immediate is its field, and 4096 less modulo 2^32 when the field's sign bit is set (R150). -/
theorem toNat_immI (x : BitVec 12) : (immI x).toNat = if x.toNat < 2048 then x.toNat else x.toNat + (2 ^ 32 - 4096) := by
  have hx := x.isLt
  rw [immI, BitVec.toNat_signExtend, BitVec.msb_eq_decide, BitVec.toNat_setWidth, Nat.mod_eq_of_lt (by omega)]
  by_cases h : x.toNat < 2048
  · simp [h]
  · simp [h, Nat.le_of_not_lt h]

/-- `%hi` rounds to the nearest multiple of 4096. -/
theorem toNat_hi20 (v : Word) : (hi20 v).toNat = (v.toNat + 2048) % 2 ^ 32 / 4096 := by
  rw [hi20, BitVec.extractLsb'_toNat, Nat.shiftRight_eq_div_pow, BitVec.toNat_add]
  exact Nat.mod_eq_of_lt (by omega)

/-- `%lo` is the remainder modulo 4096. -/
theorem toNat_lo12 (v : Word) : (lo12 v).toNat = v.toNat % 4096 := BitVec.extractLsb'_toNat 0 12 v

/-- `%hi` and `%lo` of a value give it back: "`(%hi << 12) + sext(%lo) = sym`" (R180). -/
theorem immU_hi20_add_immI_lo12 (v : Word) : immU (hi20 v) + immI (lo12 v) = v := by
  have hv := v.isLt
  apply BitVec.eq_of_toNat_eq
  rw [BitVec.toNat_add, toNat_immU, toNat_hi20, toNat_immI, toNat_lo12]
  split <;> omega

/-- The register an instruction ends by writing holds the value, when it is not x0. -/
theorem State.reg_retire {s : State} {rd : RegIdx} (hrd : rd ≠ 0#5) (v : Word) : (s.retire rd v).reg rd = v := by
  rw [State.retire_eq, State.reg_setPc, State.reg_setReg, if_neg hrd, if_pos rfl]

/-- LUI leaves its immediate in rd. -/
theorem reg_execLui {s : State} {rd : RegIdx} (hrd : rd ≠ 0#5) (imm20 : BitVec 20) :
    ∃ t, exec (.lui rd imm20) s = .next t ∧ t.reg rd = immU imm20 :=
  ⟨_, rfl, (State.reg_retire hrd _).trans (BitVec.zero_add _)⟩

/-- ADDI leaves the sum in rd. -/
theorem reg_execAddi {s : State} {rd : RegIdx} (hrd : rd ≠ 0#5) (rs1 : RegIdx) (imm : BitVec 12) :
    ∃ t, exec (.addi rd rs1 imm) s = .next t ∧ t.reg rd = s.reg rs1 + immI imm :=
  ⟨_, rfl, State.reg_retire hrd _⟩

/-- Settles O58: by the three forms of the expansion; `%hi` and `%lo` give the value back. -/
theorem loadImmediateExpansionLoads : Obligations.LoadImmediateExpansionLoads := by
  intro s rd imm hrd
  have hsum := immU_hi20_add_immI_lo12 imm
  show (∃ i t, expandLi rd imm = [i] ∧ _) ∨ (∃ i j t u, expandLi rd imm = [i, j] ∧ _)
  unfold expandLi
  split
  next hshort =>
    obtain ⟨t, ht, hreg⟩ := reg_execAddi (s := s) hrd 0#5 (lo12 imm)
    refine .inl ⟨_, t, rfl, ht, hreg.trans ?_⟩
    rw [State.reg_zero, BitVec.zero_add, hshort]
  next =>
    obtain ⟨t, ht, hreg⟩ := reg_execLui (s := s) hrd (hi20 imm)
    split
    next hlow =>
      refine .inl ⟨_, t, rfl, ht, hreg.trans ?_⟩
      rwa [hlow, show immI 0#12 = 0#32 from rfl, BitVec.add_zero] at hsum
    next =>
      obtain ⟨u, hu, hreg'⟩ := reg_execAddi (s := t) hrd rd (lo12 imm)
      refine .inr ⟨_, _, t, u, rfl, ht, hu, hreg'.trans ?_⟩
      rw [hreg, hsum]

end Sys2Proof.Machine
end

section
/-! SUPPORT. The statements about the words of the default arm (30_encoding.md R171; 43_system_csr.md R331). -/

namespace Sys2Proof.Machine

section
variable {w : Word} (hw : ∀ i, decodeWord w ≠ .ok i)
include hw

/-- A word that is no instruction decodes to an error. -/
theorem exists_decodeError : ∃ e, decodeWord w = .error e := by
  cases h : decodeWord w with
  | error e => exact ⟨e, rfl⟩
  | ok i => exact absurd h (hw i)

/-- A word that is no instruction advances the PC (R171, R331). -/
theorem execWord_of_unrecognised (s : State) : execWord w s = .next s.advance := by
  obtain ⟨e, he⟩ := exists_decodeError hw
  unfold execWord
  rw [he]
  rfl

/-- A word that is no instruction is not of the trap class (R162). -/
theorem decodeStage_sys_of_unrecognised : (decodeStage w).ctrl.sys = .none := by
  obtain ⟨e, he⟩ := exists_decodeError hw
  simp [decodeStage, immCtrl, he]
end

/-- Settles O5: the default arm answers `State.advance`, which writes the PC alone. -/
theorem defaultArmDoesNothing : Obligations.DefaultArmDoesNothing := by
  intro w s hw
  exact ⟨s.advance, execWord_of_unrecognised hw s, rfl, fun _ => rfl, fun _ => rfl, fun _ => rfl, fun _ => rfl, rfl, rfl, rfl,
    rfl, rfl⟩

/-- With an empty pipeline and the next instruction in EX, a step without reset is the cycle in EX. -/
theorem step_of_inEx {s : State} (hd : s.drained) (hx : s.front.inEx = true) (hr : s.curInputs.reset = false) :
    step s = s.exCycle s.curInputs := by
  unfold step State.stepFuel
  rw [if_neg (by simp [hr]), State.settle_of_drained hd]
  exact State.runToEx_of_inEx hr hx

/-- An interrupt at a word that is not of the trap class is taken after its execution, with the address of the next instruction
(R361). -/
theorem State.exCycle_of_interrupt {s t : State} {inp : Inputs} {cause : Word} (ha : alignedPc s.pc = true)
    (hi : s.interrupt inp = some cause) (hs : (decodeStage (s.fetchWord s.pc)).ctrl.sys = .none)
    (ht : execWord (s.fetchWord s.pc) s = .next t) :
    s.exCycle inp = .next ((s.takeTrap t cause t.pc).endCycle inp {}) := by
  unfold State.exCycle
  simp [ha, hi, hs, ht, andThen]

/-- Settles O59: the step is the cycle in EX, the default arm advances the PC there, and an interrupt enters its trap from the
advanced state. -/
theorem unrecognisedWordAtAStep : Obligations.UnrecognisedWordAtAStep := by
  intro s hd hx hr ha hw
  have hexec := execWord_of_unrecognised hw s
  rw [step_of_inEx hd hx hr]
  refine ⟨fun hi => State.exCycle_of_no_interrupt ha hi hexec, fun cause hi => ?_⟩
  exact ⟨s.takeTrap s.advance cause (s.pc + 4#32),
    State.exCycle_of_interrupt ha hi (decodeStage_sys_of_unrecognised hw) hexec,
    entersTrap_takeTrap s s cause (s.pc + 4#32), rfl, rfl, rfl, rfl⟩

end Sys2Proof.Machine
end

section
/-! SUPPORT. The statements about the integer computational instructions and the words of the spec's examples (30_encoding.md R156,
R161, R166; 40_integer.md R200 to R224). -/

namespace Sys2Proof

/-- The word of a well-formed instruction decodes to it. -/
theorem decodeWord_encodeWord (i : Instr) (h : i.wellFormed = true) : decodeWord (encodeWord i) = .ok i :=
  decodeWord_of_shape (shape_encodeWord h)

/-- LUI's decoded rs1 index is 0, whatever stands in those bits of the immediate (R161). -/
theorem rs1Index_encodeWord_lui (rd : RegIdx) (imm20 : BitVec 20) : rs1Index (encodeWord (.lui rd imm20)) = 0#5 :=
  if_pos (opcode_uType ..)

/-! ### The reserved shift-immediate words (R166) -/

section
variable {w : Word} (ho : opcodeOf w = 0b0010011#7)
include ho

/-- A word of the OP-IMM opcode is read by its funct3. -/
theorem decodeWord_of_opImm : decodeWord w = decodeOpImm w := by
  unfold decodeWord
  rw [ho]
  rfl

/-- A word of SLLI's funct3 with another funct7 is rejected by the name of its funct7. -/
theorem decodeWord_reserved_shiftLeft (h3 : funct3Of w = 0b001#3) (h7 : funct7Of w ≠ 0b0000000#7) :
    decodeWord w = .error (.reservedFunct7 (opcodeOf w) (funct3Of w) (funct7Of w)) := by
  rw [decodeWord_of_opImm ho]
  -- `simp` finds `h7` in the context, for the last arm of the match on funct7.
  simp [decodeOpImm, h3]

/-- A word of SRLI's and SRAI's funct3 with a third funct7 is rejected by the name of its funct7. -/
theorem decodeWord_reserved_shiftRight (h3 : funct3Of w = 0b101#3) (h7 : funct7Of w ≠ 0b0000000#7)
    (h7' : funct7Of w ≠ 0b0100000#7) :
    decodeWord w = .error (.reservedFunct7 (opcodeOf w) (funct3Of w) (funct7Of w)) := by
  rw [decodeWord_of_opImm ho]
  -- `simp` finds `h7` and `h7'` in the context, for the last arm of the match on funct7.
  simp [decodeOpImm, h3]

end

/-- Settles O1: the decoder computes each of the fourteen words. -/
theorem specWordsDecode : Obligations.SpecWordsDecode := by
  unfold Obligations.SpecWordsDecode
  decide

end Sys2Proof

namespace Sys2Proof.Machine

/-! ### Results from the ALU -/

/-- An instruction that computes with a register and an immediate writes what the ALU gives (R200, R201). -/
theorem writesReg_of_execOpImm {i : Instr} {s : State} {op : AluOp} {rd rs1 : RegIdx} {imm v : Word}
    (h : exec i s = execOpImm op rd rs1 imm s) (hv : alu op (s.reg rs1) imm = v) :
    WritesReg i s (s.pc + 4#32) rd v := by
  subst hv
  exact writesReg_of_setReg h

/-- An instruction that computes with two registers writes what the ALU gives (R200, R201). -/
theorem writesReg_of_execOp {i : Instr} {s : State} {op : AluOp} {rd rs1 rs2 : RegIdx} {v : Word}
    (h : exec i s = execOp op rd rs1 rs2 s) (hv : alu op (s.reg rs1) (s.reg rs2) = v) :
    WritesReg i s (s.pc + 4#32) rd v := by
  subst hv
  exact writesReg_of_setReg h

/-! ### Upper immediates and register-immediate instructions -/

/-- Settles O16: LUI adds its immediate to x0, AUIPC to the PC. -/
theorem upperImmediateResults : Obligations.UpperImmediateResults := by
  intro s rd imm20
  refine ⟨⟨decodeWord_encodeWord (.lui rd imm20) rfl, rs1Index_encodeWord_lui rd imm20, writesReg_of_execOpImm rfl ?_⟩,
    ⟨decodeWord_encodeWord (.auipc rd imm20) rfl, writesReg_of_setReg rfl⟩⟩
  exact BitVec.zero_add (immU imm20)

/-- Settles O17: each word is the instruction's encoding, each meaning the ALU function of its name. -/
theorem immediateArithmeticResults : Obligations.ImmediateArithmeticResults := by
  intro s rd rs1 imm
  exact ⟨⟨decodeWord_encodeWord (.addi rd rs1 imm) rfl, writesReg_of_execOpImm rfl (alu_add ..)⟩,
    ⟨decodeWord_encodeWord (.xori rd rs1 imm) rfl, writesReg_of_execOpImm rfl (alu_xor ..)⟩,
    ⟨decodeWord_encodeWord (.ori rd rs1 imm) rfl, writesReg_of_execOpImm rfl (alu_or ..)⟩,
    ⟨decodeWord_encodeWord (.andi rd rs1 imm) rfl, writesReg_of_execOpImm rfl (alu_and ..)⟩⟩

/-- Settles O18: the immediate is sign-extended for both, and the ALU compares by `toInt` or by `toNat`. -/
theorem setLessThanImmediateResults : Obligations.SetLessThanImmediateResults := by
  intro s rd rs1 imm
  exact ⟨⟨decodeWord_encodeWord (.slti rd rs1 imm) rfl, writesReg_of_execOpImm rfl (alu_slt ..)⟩,
    ⟨decodeWord_encodeWord (.sltiu rd rs1 imm) rfl, writesReg_of_execOpImm rfl (alu_sltu ..)⟩⟩

/-- Settles O19: the ALU takes the shamt out of the extended immediate, whose upper bits are funct7's (R156); a reserved funct7 is
an error of the decoder. -/
theorem immediateShiftResults : Obligations.ImmediateShiftResults := by
  refine ⟨fun s rd rs1 shamt => ⟨⟨decodeWord_encodeWord (.slli rd rs1 shamt) rfl, writesReg_of_execOpImm rfl ?_⟩,
    ⟨decodeWord_encodeWord (.srli rd rs1 shamt) rfl, writesReg_of_execOpImm rfl ?_⟩,
    ⟨decodeWord_encodeWord (.srai rd rs1 shamt) rfl, writesReg_of_execOpImm rfl ?_⟩⟩, ?_⟩
  · rw [alu_sll, shiftAmount_immShift]
  · rw [alu_srl, shiftAmount_immShift]
  · rw [alu_sra, shiftAmount_immShift]
  · rintro w ho (⟨h3, h7⟩ | ⟨h3, h7, h7'⟩) i
    · simp [decodeWord_reserved_shiftLeft ho h3 h7]
    · simp [decodeWord_reserved_shiftRight ho h3 h7 h7']

/-! ### Register-register instructions -/

/-- Settles O20: each word is the instruction's encoding, each meaning the ALU function of its name. -/
theorem addSubResults : Obligations.AddSubResults := by
  intro s rd rs1 rs2
  exact ⟨⟨decodeWord_encodeWord (.add rd rs1 rs2) rfl, writesReg_of_execOp rfl (alu_add ..)⟩,
    ⟨decodeWord_encodeWord (.sub rd rs1 rs2) rfl, writesReg_of_execOp rfl (alu_sub ..)⟩⟩

/-- Settles O21: each word is the instruction's encoding, each meaning the ALU function of its name. -/
theorem bitwiseResults : Obligations.BitwiseResults := by
  intro s rd rs1 rs2
  exact ⟨⟨decodeWord_encodeWord (.xor rd rs1 rs2) rfl, writesReg_of_execOp rfl (alu_xor ..)⟩,
    ⟨decodeWord_encodeWord (.or rd rs1 rs2) rfl, writesReg_of_execOp rfl (alu_or ..)⟩,
    ⟨decodeWord_encodeWord (.and rd rs1 rs2) rfl, writesReg_of_execOp rfl (alu_and ..)⟩⟩

/-- Settles O22: the ALU compares by `toInt` for SLT and by `toNat` for SLTU. -/
theorem setLessThanResults : Obligations.SetLessThanResults := by
  intro s rd rs1 rs2
  exact ⟨⟨decodeWord_encodeWord (.slt rd rs1 rs2) rfl, writesReg_of_execOp rfl (alu_slt ..)⟩,
    ⟨decodeWord_encodeWord (.sltu rd rs1 rs2) rfl, writesReg_of_execOp rfl (alu_sltu ..)⟩⟩

/-- Settles O23: the shift amount, the low five bits of `x[rs2]`, is its value modulo 32. -/
theorem registerShiftResults : Obligations.RegisterShiftResults := by
  intro s rd rs1 rs2
  rw [← shiftAmount_eq (s.reg rs2)]
  exact ⟨⟨decodeWord_encodeWord (.sll rd rs1 rs2) rfl, writesReg_of_execOp rfl (alu_sll ..)⟩,
    ⟨decodeWord_encodeWord (.srl rd rs1 rs2) rfl, writesReg_of_execOp rfl (alu_srl ..)⟩,
    ⟨decodeWord_encodeWord (.sra rd rs1 rs2) rfl, writesReg_of_execOp rfl (alu_sra ..)⟩⟩

end Sys2Proof.Machine
end

section
/-! SUPPORT. The statements about JALR and the flush of a taken jump (41_control_transfer.md R250 to R256;
70_reset_and_hazards.md R420 to R442). -/

namespace Sys2Proof

/-- The decoder rejects a word of the JALR opcode by the name of its funct3 if that is not 000 (R163). -/
theorem decodeWord_reserved_jalr {w : Word} (ho : opcodeOf w = 0b1100111#7) (h3 : funct3Of w ≠ 0b000#3) :
    decodeWord w = .error (.reservedFunct3 (opcodeOf w) (funct3Of w)) := by
  have hd : decodeWord w = decodeJalr w := by
    unfold decodeWord
    rw [ho]
    rfl
  rw [hd]
  -- `simp` finds `h3` in the context, for the last arm of the match on funct3.
  simp [decodeJalr]

end Sys2Proof

namespace Sys2Proof.Machine

/-- Settles O25: the word is JALR's encoding, its meaning a register write and a jump; a reserved funct3 is an error of the
decoder. -/
theorem jalrLinksAndJumps : Obligations.JalrLinksAndJumps := by
  refine ⟨fun _ rd rs1 imm => ⟨decodeWord_encodeWord (.jalr rd rs1 imm) rfl, writesReg_of_setReg rfl⟩, fun w ho h3 i => ?_⟩
  simp [decodeWord_reserved_jalr ho h3]

/-- A flush leaves no instruction in IF/ID, whatever the stall and the fetch say (R421). -/
theorem State.nextIfId_of_flush {s : State} {inp : Inputs} (h : s.flush inp = true) : s.nextIfId inp = {} := if_pos h

/-- A flush leaves no instruction in ID/EX (R422). -/
theorem State.nextIdEx_of_flush {s : State} {inp : Inputs} (h : s.flush inp = true) : s.nextIdEx inp = {} := by
  simp [State.nextIdEx, h]

/-- A taken jump flushes, whatever the trap controller does (R417). -/
theorem State.flush_of_exJumpReq {s : State} (hj : s.exJumpReq = true) (inp : Inputs) : s.flush inp = true := by
  simp [State.flush, hj]

/-- Where the trap controller does not act, a taken jump sets the PC, before any hold of the sequential advance (R420). -/
theorem State.nextPc_of_exJumpReq {s : State} {inp : Inputs} (hj : s.exJumpReq = true) (ht : s.trapDecision inp = .none) :
    s.nextPc inp = s.exJumpTarget := by
  simp [State.nextPc, ht, hj]

/-- Settles O54: the jump request is a flush, which has priority over the stall and the fetch in both entries, and the jump target
over the held PC. -/
theorem takenJumpFlushes : Obligations.TakenJumpFlushes := by
  intro s t hr hj hc
  obtain rfl := State.cycle_eq_commit hr hc
  have hf : s.flush s.curInputs = true := s.flush_of_exJumpReq hj _
  exact ⟨State.nextIfId_of_flush hf, State.nextIdEx_of_flush hf, State.nextPc_of_exJumpReq hj⟩

end Sys2Proof.Machine
end

section
/-! SUPPORT. The statements about byte loads, the round trip of a store and a load, and what can stop an instruction
(20_memory.md R104 to R111, R123; 42_load_store.md R280 to R290; 60_exceptions.md R351). -/

namespace Sys2Proof.Machine

/-! ### Byte loads -/

/-- The byte lane of an address is chosen by its remainder modulo 4 (R108, R109). -/
theorem laneByte_laneOf (ea w : Word) : laneByte (laneOf ea) w = w.extractLsb' (8 * (ea.toNat % 4)) 8 := by
  unfold laneByte
  rw [laneOf_toNat]

/-- Settles O27: each word has the shape of its instruction, each meaning is `execLoad`, and the address modulo 4 chooses the lane. -/
theorem byteLoadResults : Obligations.ByteLoadResults := by
  intro s rd rs1 imm ea hea
  refine ⟨⟨decodeWord_of_shape (shape_load ..), loads_of_execLoad (f3 := 0b000#3) rfl hea ?_⟩,
    ⟨decodeWord_of_shape (shape_load ..), loads_of_execLoad (f3 := 0b100#3) rfl hea ?_⟩⟩
  · exact congrArg (BitVec.signExtend 32) (laneByte_laneOf ea _)
  · exact congrArg (BitVec.zeroExtend 32) (laneByte_laneOf ea _)

/-! ### When a store completes -/

section execStore
variable {f3 : BitVec 3} {rs1 rs2 : RegIdx} {imm : BitVec 12} {s : State}

/-- A store into program text is refused (R123). -/
theorem execStore_of_text (ht : s.hitsText (s.ea rs1 imm) = true) :
    execStore f3 rs1 rs2 imm s = .refused .storeIntoProgramText := if_pos ht

/-- A store elsewhere is one bus write and pc + 4 (R280). -/
theorem execStore_of_not_text (ht : s.hitsText (s.ea rs1 imm) = false) :
    execStore f3 rs1 rs2 imm s = .next (s.storeAt f3 (s.ea rs1 imm) (s.reg rs2)).advance := if_neg (by simp [ht])

/-- The next state of a store that completes. -/
theorem eq_of_execStore_eq_next {t : State} (h : execStore f3 rs1 rs2 imm s = .next t) :
    t = (s.storeAt f3 (s.ea rs1 imm) (s.reg rs2)).advance := by
  cases ht : s.hitsText (s.ea rs1 imm) with
  | true => rw [execStore_of_text ht] at h; cases h
  | false => rw [execStore_of_not_text ht] at h; exact (Host.Outcome.next.inj h).symm

end execStore

/-- Settles O56: a store tests its address for program text; every other meaning answers a next state outright. -/
theorem onlyTextStoresStop : Obligations.OnlyTextStoresStop := by
  intro i s
  cases i
  case sb rs1 rs2 imm | sh rs1 rs2 imm | sw rs1 rs2 imm =>
    cases ht : s.hitsText (s.ea rs1 imm) with
    | true => exact .inr ⟨execStore_of_text ht, rs1, rs2, imm, by simp, ht⟩
    | false => exact .inl ⟨_, execStore_of_not_text ht⟩
  all_goals exact .inl ⟨_, rfl⟩

/-! ### The round trip (R290) -/

section stored
variable {s : State} {ea : Word} {w : WordAddr} (hw : s.dmem.wf) (h : s.target ea = .ram w)
include hw h

/-- The byte lane of the address after SB is the low byte stored. -/
theorem State.laneByte_storeAt (v : Word) :
    laneByte (laneOf ea) ((s.storeAt 0b000#3 ea v).dmem.readWord w) = v.extractLsb' 0 8 :=
  calc laneByte (laneOf ea) ((s.storeAt 0b000#3 ea v).dmem.readWord w)
      = (s.storeAt 0b000#3 ea v).dmem.read (laneAddr w (laneOf ea).toNat) := byteLane_readWord _ w (laneOf ea).isLt
    _ = v.extractLsb' 0 8 := by rw [State.storeAt_byte_read hw h, laneOf_toNat, if_pos rfl]

/-- The halfword lane of the address after SH is the low halfword stored, whatever bit 0 of the address is (R112). -/
theorem State.laneHalf_storeAt (v : Word) :
    laneHalf (laneOf ea) ((s.storeAt 0b001#3 ea v).dmem.readWord w) = v.extractLsb' 0 16 := by
  have hne : laneAddr w (ea.toNat % 4 / 2 * 2 + 1) ≠ laneAddr w (ea.toNat % 4 / 2 * 2) := by
    unfold laneAddr
    omega
  rw [laneHalf_readWord, laneOf_toNat, State.storeAt_half_read hw h, State.storeAt_half_read hw h, if_neg hne, if_pos rfl,
    if_pos rfl]
  exact byteLane_append v 0

/-- The word the address reaches after SW is the word stored, whatever bits 1:0 of the address are (R112). -/
theorem State.readWord_storeAt (v : Word) : (s.storeAt 0b010#3 ea v).dmem.readWord w = v := by
  rw [State.storeAt, State.busWrite_dmem, h]
  exact Memory.readWord_writeLanes_same hw w v

end stored

/-- A load after a completed store to main memory, from the same address, takes its lane of the word as the store left it. -/
theorem loads_after_execStore {i : Instr} {s t : State} {f3 g3 : BitVec 3} {rs1 rs2 rd rb : RegIdx} {imm off : BitVec 12}
    {w : WordAddr} {v : Word} (hram : s.target (s.ea rs1 imm) = .ram w) (hs : execStore f3 rs1 rs2 imm s = .next t)
    (hea : t.ea rb off = s.ea rs1 imm) (hl : exec i t = execLoad g3 rd rb off t)
    (hv : loadExtract g3 (laneOf (s.ea rs1 imm)) ((s.storeAt f3 (s.ea rs1 imm) (s.reg rs2)).dmem.readWord w) = v) :
    Loads i t (s.ea rs1 imm) rd v := by
  have ht := eq_of_execStore_eq_next hs
  have hread : t.busRead (s.ea rs1 imm) = (s.storeAt f3 (s.ea rs1 imm) (s.reg rs2)).dmem.readWord w := by
    have htarget : t.target (s.ea rs1 imm) = .ram w := (State.target_congr (by simp [ht]) _).trans hram
    rw [State.busRead_of_ram htarget, ht]
    rfl
  exact loads_of_execLoad hl hea.symm (by rw [hread, hv])

/-- Settles O33: each load takes back the lane that the store of its width has written. -/
theorem storeThenLoadReturnsTheValue : Obligations.StoreThenLoadReturnsTheValue := by
  intro s t rs1 rs2 rd rb imm off ea hw hea hram htea
  subst hea
  refine ⟨fun _ hs => loads_after_execStore (g3 := 0b010#3) hram hs htea rfl (State.readWord_storeAt hw hram _),
    fun _ hs => ⟨loads_after_execStore (g3 := 0b001#3) hram hs htea rfl ?_, loads_after_execStore (g3 := 0b101#3) hram hs htea rfl ?_⟩,
    fun hs => ⟨loads_after_execStore (g3 := 0b000#3) hram hs htea rfl ?_, loads_after_execStore (g3 := 0b100#3) hram hs htea rfl ?_⟩⟩
  · exact congrArg (BitVec.signExtend 32) (State.laneHalf_storeAt hw hram _)
  · exact congrArg (BitVec.zeroExtend 32) (State.laneHalf_storeAt hw hram _)
  · exact congrArg (BitVec.signExtend 32) (State.laneByte_storeAt hw hram _)
  · exact congrArg (BitVec.zeroExtend 32) (State.laneByte_storeAt hw hram _)

end Sys2Proof.Machine
end

section
/-! SUPPORT. The statements about ECALL, EBREAK, MRET and FENCE (43_system_csr.md R320 to R330). -/

namespace Sys2Proof.Machine

/-- Settles O36: both instructions are the entry of their trap at their own address, with the state itself as the snapshot. -/
theorem ecallEbreakTakeTheirTrap : Obligations.EcallEbreakTakeTheirTrap := fun s =>
  ⟨⟨_, rfl, entersTrap_takeTrap s s causeEnvCallM s.pc, rfl, rfl, rfl, rfl⟩,
    ⟨_, rfl, entersTrap_takeTrap s s causeBreakpoint s.pc, rfl, rfl, rfl, rfl⟩⟩

/-- A return from a trap is a write of `mstatus` and a jump (R370, R371). -/
theorem State.trapReturn_eq (s : State) :
    s.trapReturn = (s.setCsrReg .mstatus (mstatusOnReturn s.mstatus)).setPc s.mepc := rfl

/-- Every CSR after a return from a trap: `mstatus` alone may change. -/
theorem State.csrRead_trapReturn (s : State) (a : CsrAddr) :
    s.trapReturn.csrRead a = if a = 0x300#12 then mstatusOnReturn s.mstatus else s.csrRead a := by
  rw [State.trapReturn_eq]
  exact State.csrRead_setCsrReg s (a := 0x300#12) rfl a

/-- Settles O37: MRET is the return from a trap, whose only CSR write is that of `mstatus`. -/
theorem mretReturns : Obligations.MretReturns := fun s =>
  ⟨s.trapReturn, rfl, rfl, returnStatus_mstatusOnReturn s.mstatus,
    fun a ha => (State.csrRead_trapReturn s a).trans (if_neg ha),
    fun _ => rfl, fun _ => rfl, fun _ => rfl, rfl, rfl, rfl, rfl, rfl⟩

/-- Settles O38: the word is FENCE's encoding, and its meaning is a jump to the next word. -/
theorem fenceOnlyAdvances : Obligations.FenceOnlyAdvances := fun _ rd rs1 fm pred succ =>
  ⟨decodeWord_encodeWord (.fence rd rs1 fm pred succ) rfl, onlyJumps_of_setPc rfl⟩

end Sys2Proof.Machine
end

section
/-! SUPPORT. The statements about trap return, the pending interrupt, and the step with an instruction in EX (60_exceptions.md R350 to
R371). -/

namespace Sys2Proof.Machine

/-- A return from a trap sets the PC to `mepc`, whatever else EX asks (R420). -/
theorem State.nextPc_of_ret {s : State} {inp : Inputs} (h : s.trapDecision inp = .ret) : s.nextPc inp = s.mepc := by
  simp [State.nextPc, h]

/-- A return from a trap flushes (R417). -/
theorem State.flush_of_ret {s : State} {inp : Inputs} (h : s.trapDecision inp = .ret) : s.flush inp = true := by
  simp [State.flush, h]

/-- Settles O40: `mstatus` is that of `csrArbitrationEveryCycle`, and a return flushes and sets the PC. -/
theorem trapReturnIsOneAtomicBundle : Obligations.TrapReturnIsOneAtomicBundle := by
  intro s t hr htd hc
  obtain ⟨hcsr, -, -⟩ := csrArbitrationEveryCycle s t hr hc
  rw [htd] at hcsr
  have hstatus : t.mstatus = mstatusOnReturn s.mstatus := hcsr .mstatus
  have hflush : s.flush s.curInputs = true := State.flush_of_ret htd
  obtain rfl := State.cycle_eq_commit hr hc
  refine ⟨hstatus, ?_, State.nextPc_of_ret htd, State.nextIfId_of_flush hflush, State.nextIdEx_of_flush hflush⟩
  rw [hstatus]
  exact returnStatus_mstatusOnReturn _

/-- Settles O41: without MIE nothing is pending; with it the split is on the two lines against their local enables, and
`IRQ_TIMER_FIRST` decides only where both qualify. -/
theorem interruptPendingCondition : Obligations.InterruptPendingCondition := by
  intro s inp
  unfold State.interrupt causeExternal causeTimer
  cases hmie : s.mstatus.getLsbD 3 with
  | false => simp
  | true =>
    simp only [Bool.and_eq_true, Bool.or_eq_true, true_and, ← and_assoc (a := inp.irqExt = true)]
    by_cases hext : inp.irqExt = true ∧ s.mie.getLsbD 11 = true <;>
      by_cases htim : inp.irqTimer = true ∧ s.mie.getLsbD 7 = true <;> simp only [hext, htim]
    · cases s.cfg.irqTimerFirst <;> simp
    all_goals simp

/-- A recognised word executes its instruction (R170). -/
theorem execWord_of_decodeWord {w : Word} {i : Instr} (h : decodeWord w = .ok i) (s : State) : execWord w s = exec i s := by
  simp [execWord, h]

/-- A recognised word is of the trap class exactly as its instruction is (R162). -/
theorem decodeStage_sys_of_decodeWord {w : Word} {i : Instr} (h : decodeWord w = .ok i) :
    (decodeStage w).ctrl.sys = (ctrlOf i).sys := by
  simp [decodeStage_of w i h]

/-- ECALL, EBREAK and MRET are of the trap class. -/
theorem sys_ne_none {i : Instr} (h : i = .ecall ∨ i = .ebreak ∨ i = .mret) : (ctrlOf i).sys ≠ .none := by
  rcases h with rfl | rfl | rfl <;> decide

/-- An interrupt at a word of the trap class enters its trap from the state as it is, with the word's own address (R361). -/
theorem State.exCycle_of_interrupt_at_trapClass {s : State} {inp : Inputs} {cause : Word} (ha : alignedPc s.pc = true)
    (hi : s.interrupt inp = some cause) (hs : (decodeStage (s.fetchWord s.pc)).ctrl.sys ≠ .none) :
    s.exCycle inp = .next ((s.takeTrap s cause s.pc).endCycle inp {}) := by
  unfold State.exCycle
  simp [ha, hi, hs]

/-- Settles O42: the step is the cycle in EX, where the trap is entered from the state that the instruction answers. -/
theorem interruptFollowsOrdinaryInstruction : Obligations.InterruptFollowsOrdinaryInstruction := by
  intro s t i cause hd hx hr ha hw hecall hebreak hmret hi ht
  have hsys := (decodeStage_sys_of_decodeWord hw).trans (sys_eq_none hecall hebreak hmret)
  have hexec := (execWord_of_decodeWord hw s).trans ht
  exact ⟨s.takeTrap t cause t.pc, (step_of_inEx hd hx hr).trans (State.exCycle_of_interrupt ha hi hsys hexec),
    entersTrap_takeTrap s t cause t.pc, rfl, rfl, rfl, rfl⟩

/-- Settles O43: the step is the cycle in EX, where the trap is entered from the state of before. -/
theorem interruptPreemptsTrapClass : Obligations.InterruptPreemptsTrapClass := by
  intro s i cause hd hx hr ha hw htrap hi
  have hsys := (decodeStage_sys_of_decodeWord hw).trans_ne (sys_ne_none htrap)
  exact ⟨s.takeTrap s cause s.pc, (step_of_inEx hd hx hr).trans (State.exCycle_of_interrupt_at_trapClass ha hi hsys),
    entersTrap_takeTrap s s cause s.pc, rfl, rfl, rfl, rfl⟩

/-- Settles O45: the step is the cycle in EX, which without an interrupt is the instruction and the clock edge. -/
theorem stepInExRunsTheInstruction : Obligations.StepInExRunsTheInstruction := by
  intro s i hd hx hr ha hw hi
  rw [step_of_inEx hd hx hr]
  exact State.exCycle_eq_andThen ha hi hw

end Sys2Proof.Machine
end

section
/-! SUPPORT. The statements about reset, write back, forwarding and the load-use stall, and the pipeline invariant at reset and over a
clock cycle (70_reset_and_hazards.md R400 to R437). -/

namespace Sys2Proof.Machine

/-! ### Reset -/

/-- Every register reads 0 after a reset (log 5). -/
@[simp] theorem State.reg_afterReset (s : State) (r : RegIdx) : s.afterReset.reg r = 0#32 := by
  simp [State.reg, State.afterReset, State.resetWith, regRead]

/-- After a reset every CSR address but `misa` reads 0 (R401, D11). -/
theorem State.csrRead_afterReset (s : State) (a : CsrAddr) :
    s.afterReset.csrRead a = if a = 0x301#12 then s.cfg.misa else 0#32 := by
  unfold State.csrRead
  split
  case h_11 => exact (by decide : (0#64).extractLsb' 32 32 = 0#32)
  case h_16 => exact (if_neg ‹_›).symm
  all_goals rfl

/-- With reset asserted a clock cycle gives the reset state (R403). -/
theorem State.cycle_of_reset {s : State} (h : s.curInputs.reset = true) : s.cycle = .next s.afterReset := if_pos h

/-- Settles O11: both levels test the reset first, and the reset state has its fields by definition. -/
theorem resetGivesTheResetState : Obligations.ResetGivesTheResetState :=
  ⟨fun _ h => ⟨State.cycle_of_reset h, if_pos h⟩,
    fun s => ⟨rfl, alignedPc_resetPc s.cfg, s.reg_afterReset, rfl, s.csrRead_afterReset, rfl, rfl, rfl, rfl, rfl, rfl⟩⟩

/-- With an empty pipeline and the front end's view not in use, the pipeline invariant holds. -/
theorem pipeInv_of_empty {s : State} (hf : s.front = {}) (hp : s.pipe = {}) : PipeInv s := by
  constructor
  case noFront => exact hf
  all_goals simp [hp]

/-- Settles O48: a reset leaves the pipeline empty. -/
theorem pipeInvAtReset : Obligations.PipeInvAtReset := ⟨pipeInv_of_empty rfl rfl, fun _ => pipeInv_of_empty rfl rfl⟩

/-! ### Write back and forwarding -/

/-- Settles O7: the commit writes back the entry in MEM/WB. -/
theorem writeBackCommitsSelectedValue : Obligations.WriteBackCommitsSelectedValue := by
  intro s t hr hc
  obtain rfl := State.cycle_eq_commit hr hc
  rw [State.commit_regs]
  simp only [wbRegs, MemWb.we, Bool.and_eq_true, bne_iff_ne, and_assoc]
  rfl

/-- Settles O50: both operands are those of the instruction level in the view of EX that the invariant gives. -/
theorem forwardedOperandsAreCurrent : Obligations.ForwardedOperandsAreCurrent := by
  intro s h hv
  have v := h.view hv
  exact ⟨v.rs1 ▸ v.a, v.rs2 ▸ v.b⟩

/-! ### What a cycle without flush leaves in the front end -/

section
variable {s : State} {inp : Inputs}

/-- Without a flush the trap controller does nothing and no jump is taken (R417). -/
theorem State.of_flush_eq_false (h : s.flush inp = false) : s.trapDecision inp = .none ∧ s.exJumpReq = false := by
  simpa [State.flush] using h

/-- Without a flush the PC advances, unless the stall or an invalid fetch holds it (R420). -/
theorem State.nextPc_of_no_flush (h : s.flush inp = false) :
    s.nextPc inp = if s.loadUse then s.pc else if inp.imemValid then s.pc + 4#32 else s.pc := by
  obtain ⟨htd, hj⟩ := State.of_flush_eq_false h
  unfold State.nextPc
  rw [htd, hj]
  cases inp.imemValid <;> rfl

/-- An instruction in IF/ID after a cycle was held there by the stall, with the PC, or has just been fetched (R420, R421). -/
theorem State.nextIfId_cases (hv : (s.nextIfId inp).valid = true) :
    (s.nextIfId inp = s.pipe.ifId ∧ s.nextPc inp = s.pc) ∨
    (s.latchesFetch inp = true ∧ s.nextIfId inp = { valid := true, pc := s.pc, instr := s.fetchWord s.pc } ∧
      s.nextPc inp = s.pc + 4#32) := by
  cases hf : s.flush inp with
  | true => simp [State.nextIfId_of_flush hf] at hv
  | false =>
    rw [State.nextPc_of_no_flush hf]
    unfold State.latchesFetch
    cases hl : s.loadUse with
    | true => exact .inl ⟨by simp [State.nextIfId, hf, hl], rfl⟩
    | false =>
      cases hm : inp.imemValid with
      | true => exact .inr ⟨by simp [hf], by simp [State.nextIfId, hf, hl, hm], rfl⟩
      | false => simp [State.nextIfId, hf, hl, hm] at hv

/-- An instruction in ID/EX after a cycle comes from ID, with no flush and no stall (R422). -/
theorem State.of_nextIdEx_valid (hv : (s.nextIdEx inp).valid = true) :
    s.flush inp = false ∧ s.loadUse = false ∧ s.pipe.ifId.valid = true ∧ s.nextIdEx inp = s.toIdEx := by
  unfold State.nextIdEx at hv ⊢
  split at hv
  next => cases hv
  next h =>
    rw [if_neg h]
    simp only [Bool.or_eq_true, Bool.not_eq_true', not_or, Bool.not_eq_true, Bool.not_eq_false] at h
    obtain ⟨⟨hf, hl⟩, hi⟩ := h
    exact ⟨hf, hl, hi, rfl⟩

/-- The instruction that goes from ID into EX is followed by the one fetched in the same cycle, or by the one at the PC (R420). -/
theorem State.nextIfId_order (hf : s.flush inp = false) (hl : s.loadUse = false) :
    (if (s.nextIfId inp).valid then (s.nextIfId inp).pc else s.nextPc inp) = s.pc := by
  rw [State.nextPc_of_no_flush hf]
  cases hm : inp.imemValid <;> simp [State.nextIfId, hf, hl, hm]

/-- Without the hazard a load in EX feeds no register that the instruction in ID reads (R430). -/
theorem State.rd_ne_of_no_loadUse (hl : s.loadUse = false) (hi : s.pipe.ifId.valid = true) (hv : s.pipe.idEx.valid = true)
    (hm : s.pipe.idEx.ctrl.memRead = true) (h0 : s.pipe.idEx.rd ≠ 0#5) :
    s.pipe.idEx.rd ≠ rs1Index s.pipe.ifId.instr ∧ s.pipe.idEx.rd ≠ rs2Index s.pipe.ifId.instr := by
  simpa [State.loadUse, hi, hv, hm, h0] using hl

/-- What ID reads is the register after the cycle, so it is current (R436). -/
theorem State.operandCurrent_rfRead (r : RegIdx) : (s.commit inp).operandCurrent r (s.rfRead r) := by
  refine ⟨fun h0 => if_pos h0, fun _ _ _ => ?_⟩
  rw [rfRead_eq, ← State.commit_regs s inp]
  rfl

end

/-! ### The pipeline invariant over a cycle -/

/-- The address of a fetch that enters the pipeline is aligned in every cycle that answers a next state (R122). -/
theorem State.aligned_of_cycle {s t : State} (hr : s.curInputs.reset = false) (hc : s.cycle = .next t)
    (hl : s.latchesFetch s.curInputs = true) : alignedPc s.pc = true := by
  cases ha : alignedPc s.pc with
  | true => rfl
  | false =>
    unfold State.cycle at hc
    rw [if_neg (by simp [hr])] at hc
    split at hc <;> simp [hl, ha] at hc

/-- Only a load has memory data as the write-back source of the instruction in EX. -/
theorem PipeInv.memRead {s : State} (h : PipeInv s) (hv : s.pipe.idEx.valid = true) (hm : s.pipe.idEx.ctrl.wbSel = .mem) :
    s.pipe.idEx.ctrl.memRead = true := by
  have hctrl := (h.view hv).ctrl
  rw [← hctrl] at hm ⊢
  exact decodeStage_mem _ hm

/-- The commit of a cycle keeps the invariant when a fetch that enters the pipeline is aligned. -/
theorem PipeInv.commit {s : State} {inp : Inputs} (h : PipeInv s)
    (ha : s.latchesFetch inp = true → alignedPc s.pc = true) : PipeInv (s.commit inp) := by
  have hfetch : ∀ pc, (s.commit inp).fetchWord pc = s.fetchWord pc := fun pc => by simp [State.fetchWord]
  constructor
  case noFront => rfl
  case ifId =>
    intro hv
    rw [State.commit_ifId] at hv ⊢
    rw [State.commit_pc, hfetch]
    rcases State.nextIfId_cases hv with ⟨hold, hpc⟩ | ⟨hl, hnew, hpc⟩
    · rw [hold] at hv ⊢
      rw [hpc]
      exact h.ifId hv
    · rw [hnew, hpc]
      exact ⟨rfl, ha hl, rfl⟩
  all_goals
    intro hv
    rw [State.commit_idEx] at hv
    obtain ⟨hf, hl, hi, heq⟩ := State.of_nextIdEx_valid hv
    obtain ⟨hinstr, haligned, hnext⟩ := h.ifId hi
    rw [State.commit_idEx, heq]
  case idEx =>
    rw [hfetch]
    exact ⟨hinstr, haligned, rfl⟩
  case order =>
    rw [State.commit_ifId, State.commit_pc]
    exact (State.nextIfId_order hf hl).trans hnext
  case operands => exact ⟨State.operandCurrent_rfRead _, State.operandCurrent_rfRead _⟩
  case interlock =>
    intro hv' hm h0
    exact State.rd_ne_of_no_loadUse hl hi hv' (h.memRead hv' hm) h0

/-- Settles O49: a cycle is a reset, which empties the pipeline, or a commit of an aligned fetch. -/
theorem cycleKeepsPipeInv : Obligations.CycleKeepsPipeInv := by
  intro s t h hc
  rcases State.cycle_eq_next hc with ⟨-, rfl⟩ | ⟨hr, rfl⟩
  · exact pipeInv_of_empty rfl rfl
  · exact h.commit (State.aligned_of_cycle hr hc)

/-- With a bubble in ID/EX the load-use hazard does not hold. -/
theorem State.loadUse_of_bubble {s : State} (h : s.pipe.idEx.valid = false) : s.loadUse = false := by
  simp [State.loadUse, h]

/-- Settles O53: the stall holds the PC and IF/ID; the bubble it puts into EX ends it, and the load goes on into EX/MEM. -/
theorem loadUseStallsExactlyOneCycle : Obligations.LoadUseStallsExactlyOneCycle := by
  intro s t hr hl hf hc
  obtain rfl := State.cycle_eq_commit hr hc
  have hbubble : s.nextIdEx s.curInputs = {} := by simp [State.nextIdEx, hl]
  refine ⟨?_, ?_, hbubble, State.loadUse_of_bubble ?_, rfl, ?_⟩
  · rw [State.commit_pc, State.nextPc_of_no_flush hf, hl]
    rfl
  · simp [State.nextIfId, hf, hl]
  · rw [State.commit_idEx, hbubble]
  · have hload : s.pipe.idEx.ctrl.memRead = true := by
      simp only [State.loadUse, Bool.and_eq_true] at hl
      obtain ⟨⟨⟨-, hm⟩, -⟩, -⟩ := hl
      exact hm
    exact hload

end Sys2Proof.Machine
end

section
/-! SUPPORT. The refinement of the instruction level by the cycle level (70_reset_and_hazards.md R450): one clock cycle against one
cycle of the instruction level, and one step against a run of clock cycles. -/

namespace Sys2Proof.Machine

/-! ### The cycle in EX at the instruction level, by the control vector -/

/-- What the trap controller does with the decoded word at the instruction level (R359, R361). -/
def State.dpDecision (s : State) (inp : Inputs) (d : Decoded) : TrapDecision :=
  match s.interrupt inp with
  | some cause =>
    .entry cause (if d.ctrl.sys != .none then s.pc else if s.jumps d then s.dpTarget d else s.pc + 4#32)
  | none =>
    match d.ctrl.sys with
    | .ecall => .entry causeEnvCallM s.pc
    | .ebreak => .entry causeBreakpoint s.pc
    | .mret => .ret
    | .none => .none

/-- The state after the decoded word and what the trap controller does in its cycle, before the clock edge. -/
def State.dpTrap (s : State) (td : TrapDecision) (w : Word) (d : Decoded) : State :=
  match td with
  | .none => (s.dpBody w d).setPc (if s.jumps d then s.dpTarget d else s.pc + 4#32)
  | .entry cause epc => s.takeTrap (s.dpBody w d) cause epc
  | .ret => { s.dpBody w d with mstatus := mstatusOnReturn s.mstatus, pc := s.mepc }

/-- The cycle in which the decoded word is in EX: its datapath, the trap controller's action and the clock edge, or the refusal of a
store into program text. -/
def State.dpCycle (s : State) (inp : Inputs) (w : Word) (d : Decoded) : Result :=
  if d.ctrl.memWrite && s.hitsText (s.dpAlu d) then .refused .storeIntoProgramText
  else .next ((s.dpTrap (s.dpDecision inp d) w d).endCycle inp
    (s.front.next (s.dpDecision inp d != .none || s.jumps d) (s.stalls d) inp.imemValid))

/-- To go on from a refusal or a next state. -/
theorem andThen_ite_refused (c : Prop) [Decidable c] (r : Refusal) (t : State) (f : State → State) :
    andThen (if c then .refused r else .next t) f = if c then .refused r else .next (f t) := by
  split <;> rfl

section
variable {s : State} {inp : Inputs} (ha : alignedPc s.pc = true)
include ha

/-- At a word that is not of the trap class the cycle in EX is the datapath's: an interrupt is taken after it (R361). -/
theorem State.exCycle_eq_dpCycle_of_ordinary (hs : (decodeStage (s.fetchWord s.pc)).ctrl.sys = .none) :
    s.exCycle inp = s.dpCycle inp (s.fetchWord s.pc) (decodeStage (s.fetchWord s.pc)) := by
  unfold State.exCycle State.dpCycle
  dsimp only
  rw [execWord_eq_dp]
  unfold State.dp State.dpDecision
  generalize decodeStage (s.fetchWord s.pc) = d at hs ⊢
  cases s.interrupt inp with
  | none => simp [ha, hs, andThen_ite_refused, State.dpTrap]
  | some cause => simp [ha, hs, andThen_ite_refused, State.dpTrap, State.takeTrap, FrontEnd.next]

/-- At a word of the trap class the cycle in EX is the datapath's: the word has no effect but its trap or return, and an interrupt
pre-empts it (R361). -/
theorem State.exCycle_eq_dpCycle_of_trapClass (hs : (decodeStage (s.fetchWord s.pc)).ctrl.sys ≠ .none) :
    s.exCycle inp = s.dpCycle inp (s.fetchWord s.pc) (decodeStage (s.fetchWord s.pc)) := by
  obtain ⟨-, -, hmem, -, -⟩ := decodeStage_sys _ hs
  have hbody := dpBody_sys s _ hs
  cases hi : s.interrupt inp with
  | some cause =>
    rw [State.exCycle_of_interrupt_at_trapClass ha hi hs]
    simp [State.dpCycle, State.dpDecision, State.dpTrap, FrontEnd.next, hi, hs, hmem, hbody]
  | none =>
    unfold State.exCycle State.dpCycle State.dpDecision
    dsimp only
    rw [execWord_eq_dp]
    cases hsys : (decodeStage (s.fetchWord s.pc)).ctrl.sys with
    | none => exact absurd hsys hs
    | ecall | ebreak => simp [State.dp, State.dpTrap, FrontEnd.next, andThen, ha, hi, hsys, hmem, hbody]
    | mret => simp [State.dp, State.dpTrap, State.trapReturn, FrontEnd.next, andThen, ha, hi, hsys, hmem, hbody]

/-- The cycle in EX is the datapath's for every fetched word. -/
theorem State.exCycle_eq_dpCycle : s.exCycle inp = s.dpCycle inp (s.fetchWord s.pc) (decodeStage (s.fetchWord s.pc)) := by
  by_cases hs : (decodeStage (s.fetchWord s.pc)).ctrl.sys = .none
  · exact State.exCycle_eq_dpCycle_of_ordinary ha hs
  · exact State.exCycle_eq_dpCycle_of_trapClass ha hs
end

/-- The writable CSRs after the decoded word and the trap controller's action, by the arbitration (R55). -/
theorem State.dpTrap_csrReg (s : State) (td : TrapDecision) (w : Word) (d : Decoded) (q : CsrReg) :
    (s.dpTrap td w d).csrReg q = arbitrate (s.trapWrite td q)
      (cpuWrite (if d.ctrl.csrWrite then csrLegal d.ctrl.csrAddr (s.dpCsrNew w d) else none) q) (s.csrReg q) := by
  have hbody := dpBody_csr s w d
  cases td with
  | none => exact hbody q
  | entry cause epc =>
    cases q
    case mstatus | mepc | mcause => rfl
    all_goals refine Eq.trans ?_ (hbody _); rfl
  | ret =>
    cases q
    case mstatus => rfl
    all_goals refine Eq.trans ?_ (hbody _); rfl

/-- The trap controller's action writes CSRs and the PC only. -/
theorem State.dpTrap_keeps (s : State) (td : TrapDecision) (w : Word) (d : Decoded) :
    (s.dpTrap td w d).regs = (s.dpBody w d).regs ∧ (s.dpTrap td w d).dmem = (s.dpBody w d).dmem ∧
    (s.dpTrap td w d).deviceReads = (s.dpBody w d).deviceReads ∧ (s.dpTrap td w d).cfg = s.cfg ∧
    (s.dpTrap td w d).imem = s.imem ∧ (s.dpTrap td w d).mcycle64 = s.mcycle64 ∧ (s.dpTrap td w d).pipe = s.pipe ∧
    (s.dpTrap td w d).inputs = s.inputs := by
  obtain ⟨hcfg, -, hcycle, himem, hpipe, hinputs, -⟩ := dpBody_keep s w d
  cases td <;> exact ⟨rfl, rfl, rfl, hcfg, himem, hcycle, hpipe, hinputs⟩

/-! ### The cycle in EX at the cycle level -/

/-- The trap controller decides in EX as at the instruction level. -/
theorem ExView.trapDecision {s : State} {d : Decoded} {w : Word} (v : ExView s d w) (hv : s.pipe.idEx.valid = true)
    (inp : Inputs) : s.trapDecision inp = s.settle.dpDecision inp d := by
  unfold State.trapDecision State.dpDecision
  rw [v.jumps hv, v.target, v.ctrl, v.pc, State.settle_interrupt, hv]
  rfl

/-- The PC after the cycle of an instruction in EX, and with it the next instruction, is the instruction level's (R420). -/
theorem PipeInv.commit_oldestPc {s : State} {inp : Inputs} {d : Decoded} {w : Word} (h : PipeInv s)
    (hv : s.pipe.idEx.valid = true) (v : ExView s d w) :
    (s.commit inp).oldestPc = (s.settle.dpTrap (s.trapDecision inp) w d).pc := by
  cases hf : s.flush inp with
  | false =>
    obtain ⟨htd, hj⟩ := State.of_flush_eq_false hf
    rw [commit_oldestPc_seq h hv hf, htd]
    simp [State.dpTrap, ← v.jumps hv, hj, ← v.pc]
  | true =>
    rw [commit_oldestPc_flush hf]
    unfold State.nextPc
    cases htd : s.trapDecision inp with
    | none =>
      have hj : s.exJumpReq = true := by simpa [State.flush, htd] using hf
      simp [State.dpTrap, ← v.jumps hv, hj, v.target]
    | entry cause epc => simp [State.dpTrap, State.takeTrap]
    | ret => simp [State.dpTrap]

/-- The commit of a cycle with an instruction in EX, settled, is the instruction's datapath, the trap controller's action and the
clock edge. -/
theorem PipeInv.settle_commit {s : State} {inp : Inputs} {d : Decoded} {w : Word} (h : PipeInv s)
    (hv : s.pipe.idEx.valid = true) (v : ExView s d w) :
    (s.commit inp).settle = (s.settle.dpTrap (s.trapDecision inp) w d).endCycle inp
      (s.settle.front.next (s.trapDecision inp != .none || s.settle.jumps d) (s.settle.stalls d) inp.imemValid) := by
  obtain ⟨hregs, hdmem, hreads, hcfg, himem, hcycle, hpipe, hinputs⟩ := s.settle.dpTrap_keeps (s.trapDecision inp) w d
  refine settle_commit_ex v hv _ _ _ (fun q => ?_) (h.commit_oldestPc hv v) ?_ ⟨hregs, hdmem, hreads, ?_⟩ rfl
  · rw [State.dpTrap_csrReg, nextCsr_eq v hv, settle_csrReg]
    simp [State.trapWrite]
  · rw [commit_front, State.flush, v.jumps hv, h.stalls hv v, State.settle_front, h.noFront]
    rfl
  · simp [hcfg, himem, hcycle, hpipe, hinputs]

/-- A clock cycle with an instruction in EX is the instruction level's cycle in EX. -/
theorem PipeInv.cycle_inEx {s : State} (h : PipeInv s) (hr : s.curInputs.reset = false) (hv : s.pipe.idEx.valid = true) :
    andThen s.cycle State.settle = s.settle.exCycle s.curInputs := by
  have v := h.view hv
  rw [State.exCycle_eq_dpCycle v.aligned, v.fetch, State.dpCycle, ← v.trapDecision hv, ← h.settle_commit hv v, ← storesText_eq v hv]
  unfold State.cycle
  cases s.storesText <;> simp [hr, h.pc_aligned hv, andThen]

/-! ### The bubble cycle -/

/-- With a bubble in EX the fetch is aligned exactly when the next instruction's address is. -/
theorem PipeInv.aligned_oldestPc {s : State} (h : PipeInv s) (hv : s.pipe.idEx.valid = false) :
    alignedPc s.oldestPc = alignedPc s.pc := by
  unfold State.oldestPc
  cases hi : s.pipe.ifId.valid with
  | false => simp [hv]
  | true =>
    obtain ⟨-, ha, hpc⟩ := h.ifId hi
    simp [hv, hpc, ha, aligned_next ha]

/-- With a bubble in EX there is no flush (R356). -/
theorem State.flush_of_bubble {s : State} (hv : s.pipe.idEx.valid = false) (inp : Inputs) : s.flush inp = false := by
  simp [State.flush, State.trapDecision, State.exJumpReq, hv]

/-- A clock cycle with a bubble in EX is the instruction level's bubble cycle. -/
theorem PipeInv.cycle_bubble {s : State} (h : PipeInv s) (hr : s.curInputs.reset = false) (hv : s.pipe.idEx.valid = false) :
    andThen s.cycle State.settle = s.settle.bubbleCycle s.curInputs := by
  have htext : s.storesText = false := by simp [State.storesText, hv]
  have hlatch : s.latchesFetch s.curInputs = s.curInputs.imemValid := by
    simp [State.latchesFetch, State.flush_of_bubble hv, State.loadUse_of_bubble hv]
  unfold State.cycle State.bubbleCycle
  rw [hr, htext, hlatch, State.settle_pc, h.aligned_oldestPc hv, ← bubble_commit h hv]
  cases s.curInputs.imemValid && !alignedPc s.pc <;> rfl

/-- Settling leaves the inputs of the current cycle. -/
@[simp] theorem State.settle_curInputs (s : State) : s.settle.curInputs = s.curInputs := by simp [State.curInputs]

/-- The settled state has its next instruction in EX exactly when ID/EX is valid. -/
theorem PipeInv.settle_inEx {s : State} (h : PipeInv s) : s.settle.front.inEx = s.pipe.idEx.valid := by simp [h.noFront]

/-- Settles O51: by whether EX holds an instruction or a bubble. -/
theorem cycleRefinesInstructionLevel : Obligations.CycleRefinesInstructionLevel := by
  intro s h hr
  unfold State.instrCycle
  rw [State.settle_curInputs, hr, h.settle_inEx]
  cases hv : s.pipe.idEx.valid with
  | true => exact h.cycle_inEx hr hv
  | false => exact h.cycle_bubble hr hv

/-! ### A step as a run of clock cycles -/

/-- A clock cycle uses up one entry of the input trace (log 16). -/
@[simp] theorem State.commit_inputs (s : State) (inp : Inputs) : (s.commit inp).inputs = s.inputs.tail := by
  simp [State.commit, State.tick, State.pipeEdge, State.csrEdge]

/-- The cycles before the next instruction has been in EX, at most: an empty front end waits for a valid fetch, which comes when the
trace is used up (log 16). -/
def State.cyclesToEx (s : State) : Nat :=
  if s.pipe.idEx.valid then 1 else if s.pipe.ifId.valid then 2 else s.inputs.length + 3

theorem State.cyclesToEx_pos (s : State) : 0 < s.cyclesToEx := by
  unfold State.cyclesToEx
  split
  · omega
  · split <;> omega

theorem State.cyclesToEx_le_stepFuel (s : State) : s.cyclesToEx ≤ s.stepFuel := by
  unfold State.cyclesToEx State.stepFuel
  split
  · omega
  · split <;> omega

/-- A bubble cycle brings the next instruction nearer to EX. -/
theorem State.cyclesToEx_commit_lt {s : State} (hv : s.pipe.idEx.valid = false) :
    (s.commit s.curInputs).cyclesToEx < s.cyclesToEx := by
  have hf := State.flush_of_bubble hv s.curInputs
  have hl := State.loadUse_of_bubble hv
  unfold State.cyclesToEx
  rw [State.commit_idEx, State.commit_ifId, hv]
  cases hi : s.pipe.ifId.valid with
  | true => simp [State.nextIdEx, hf, hl, hi, State.toIdEx]
  | false =>
    have hex : s.nextIdEx s.curInputs = {} := by simp [State.nextIdEx, hi]
    cases hm : s.curInputs.imemValid with
    | true => simp [hex, State.nextIfId, hf, hl, hm]
    | false =>
      cases hin : s.inputs with
      | nil => simp [State.curInputs_of_quiet hin] at hm
      | cons i is => simp [hex, State.nextIfId, hf, hl, hm, hin]

/-- A run of clock cycles with a bubble in EX, then one with an instruction in EX, to a state that settles to `t`. -/
def ReachesEx (s t : State) : Prop :=
  ∃ k u v, State.cycles k s = .next u ∧ u.pipe.idEx.valid = true ∧ u.cycle = .next v ∧ v.settle = t ∧
    ∀ j < k, ∀ x, State.cycles j s = .next x → x.pipe.idEx.valid = false

/-- With an instruction in EX the run is one cycle. -/
theorem reachesEx_of_inEx {s v : State} (hv : s.pipe.idEx.valid = true) (hc : s.cycle = .next v) : ReachesEx s v.settle :=
  ⟨0, s, v, rfl, hv, hc, rfl, fun _ hj => absurd hj (Nat.not_lt_zero _)⟩

/-- Clock cycles after a first one. -/
theorem State.cycles_succ {s u : State} (hc : s.cycle = .next u) (k : Nat) : State.cycles (k + 1) s = State.cycles k u := by
  simp [State.cycles, hc]

/-- With a bubble in EX a cycle comes before the run. -/
theorem ReachesEx.of_bubble {s u t : State} (hv : s.pipe.idEx.valid = false) (hc : s.cycle = .next u) (h : ReachesEx u t) :
    ReachesEx s t := by
  obtain ⟨k, x, v, hx, hxv, hxc, ht, hbefore⟩ := h
  refine ⟨k + 1, x, v, (State.cycles_succ hc k).trans hx, hxv, hxc, ht, fun j hj y hy => ?_⟩
  cases j with
  | zero => exact Host.Outcome.next.inj hy ▸ hv
  | succ j => exact hbefore j (Nat.lt_of_succ_lt_succ hj) y ((State.cycles_succ hc j).symm.trans hy)

/-- With no reset scheduled the current cycle has none. -/
theorem State.curInputs_reset {s : State} (hs : ∀ i ∈ s.inputs, i.reset = false) : s.curInputs.reset = false := by
  unfold State.curInputs
  cases hi : s.inputs with
  | nil => rfl
  | cons i is => exact hs i (by simp [hi])

/-- A run to EX that answers a next state with a bubble in EX goes on from the bubble cycle's next state. -/
theorem State.of_runToEx_bubble {s t : State} {n : Nat} (hr : s.curInputs.reset = false) (hf : s.front.inEx = false)
    (h : State.runToEx (n + 1) s = .next t) : ∃ u, s.bubbleCycle s.curInputs = .next u ∧ State.runToEx n u = .next t := by
  cases hb : s.bubbleCycle s.curInputs with
  | next u => exact ⟨u, rfl, (State.runToEx_of_bubble hr hf hb).symm.trans h⟩
  | fault f => simp [State.runToEx, hr, hf, hb] at h
  | refused r => simp [State.runToEx, hr, hf, hb] at h

/-- With enough fuel, what the run of the instruction level answers from the settled state is reached by clock cycles. -/
theorem PipeInv.reachesEx {n : Nat} {s t : State} (h : PipeInv s) (hs : ∀ i ∈ s.inputs, i.reset = false)
    (hn : s.cyclesToEx ≤ n) (ht : State.runToEx n s.settle = .next t) : ReachesEx s t := by
  induction n generalizing s with
  | zero => exact absurd hn (Nat.not_le_of_gt s.cyclesToEx_pos)
  | succ n ih =>
    have hr := State.curInputs_reset hs
    have hr' : s.settle.curInputs.reset = false := by rw [State.settle_curInputs, hr]
    cases hv : s.pipe.idEx.valid with
    | true =>
      rw [State.runToEx_of_inEx hr' (h.settle_inEx.trans hv), State.settle_curInputs, ← h.cycle_inEx hr hv] at ht
      obtain ⟨v, hc, rfl⟩ := andThen_eq_next ht
      exact reachesEx_of_inEx hv hc
    | false =>
      obtain ⟨x, hx, ht⟩ := State.of_runToEx_bubble hr' (h.settle_inEx.trans hv) ht
      rw [State.settle_curInputs, ← h.cycle_bubble hr hv] at hx
      obtain ⟨u, hc, rfl⟩ := andThen_eq_next hx
      obtain rfl := State.cycle_eq_commit hr hc
      have hfewer := State.cyclesToEx_commit_lt hv
      refine .of_bubble hv hc (ih (cycleKeepsPipeInv s _ h hc) (fun i hi => hs i ?_) (by omega) ht)
      rw [State.commit_inputs] at hi
      exact List.mem_of_mem_tail hi

/-- Settles O52: the fuel of a step is enough for the run that `PipeInv.reachesEx` builds cycle by cycle. -/
theorem stepIsARunOfThePipeline : Obligations.StepIsARunOfThePipeline := by
  intro s t h hs ht
  unfold step at ht
  rw [if_neg (by simp [State.curInputs_reset hs])] at ht
  exact h.reachesEx hs s.cyclesToEx_le_stepFuel ht

end Sys2Proof.Machine
end
